-- ==== Sys2Proof/Word.lean ====
section
/-! DEFINITION. The data the engine works on: bytes, fixed-size byte strings, addresses, and the two
frame records of 10_state.md (RawFrame, LogicalChunk), with the status of a transaction. -/

namespace Sys2Proof

/-- A byte (00_scope.md R10). -/
abbrev Byte := BitVec 8

/-- Two bytes in wire order: a stored CRC (30_encoding.md R83). -/
structure Bytes2 where
  b0 : Byte
  b1 : Byte
deriving DecidableEq, Repr, Inhabited

/-- Four bytes in wire order: `id`, `aris`, a packed control word, `end`, a marker, a network id,
the `WORD` port (10_state.md R24, R30). -/
structure Bytes4 where
  b0 : Byte
  b1 : Byte
  b2 : Byte
  b3 : Byte
deriving DecidableEq, Repr, Inhabited

/-- An address section: six opaque bytes (10_state.md R28). -/
structure Address where
  b0 : Byte
  b1 : Byte
  b2 : Byte
  b3 : Byte
  b4 : Byte
  b5 : Byte
deriving DecidableEq, Repr, Inhabited

/-- Sixteen bytes: a key, a cipher block or a round key. The bytes are held in the column layout of
43_aes128_primitive.md R171: column `c` is bytes `4*c` to `4*c + 3`, so byte `r + 4*c` is `c_c.b_r`
and byte 15 is `c3.b3`. -/
structure Bytes16 where
  c0 : Bytes4
  c1 : Bytes4
  c2 : Bytes4
  c3 : Bytes4
deriving DecidableEq, Repr, Inhabited

/-- ControlWord1Fields (10_state.md R33): nine values, each held as 8 bits; the wire widths are
narrower and the record does not enforce them. -/
structure ControlWord1Fields where
  version : Byte
  destinations : Byte
  optionBits : Byte
  fromRelay : Byte
  sequenceNo : Byte
  retry : Byte
  moreData : Byte
  identifier : Byte
  moreHeader : Byte
deriving DecidableEq, Repr, Inhabited

/-- ControlWord2Fields (10_state.md R34): the logical view of control word 2, whose `dataLength` is a
byte count of 16 bits. -/
structure ControlWord2Fields where
  dataLength : BitVec 16
  feature : Byte
  negAnswer : Byte
  freqSwitch : Byte
deriving DecidableEq, Repr, Inhabited

/-- Control word 2 as it stands on the wire (30_encoding.md R78): `dataUnits` counts units of 8 bytes
and the 21 reserved bits are kept. The flags are 8-bit values, as `SET_FIELD` takes them. -/
structure ControlWord2Wire where
  dataUnits : Byte
  feature : Byte
  negAnswer : Byte
  freqSwitch : Byte
  reserved : BitVec 21
deriving DecidableEq, Repr, Inhabited

/-- RawFrame, the byte-exact wire representation (10_state.md R30). `frameEnd` is the section the
spec calls `end`. -/
structure RawFrame where
  id : Bytes4
  aris : Bytes4
  ctrl : Bytes4
  origin : Address
  destinationA : Address
  destinationsB : List Address
  destinationC : Option Address
  ctrl2 : Option Bytes4
  crcHeader : Bytes2
  data : Option (List Byte)
  crcData : Option Bytes2
  frameEnd : Bytes4
deriving DecidableEq, Repr, Inhabited

/-- LogicalChunk, the decoded, typed view (10_state.md R32). -/
structure LogicalChunk where
  id : Bytes4
  aris : Bytes4
  ctrl : ControlWord1Fields
  origin : Address
  destinationA : Address
  destinationsB : List Address
  destinationC : Option Address
  ctrl2 : ControlWord2Fields
  crcHeader : Bytes2
  data : List Byte
  crcData : Bytes2
  frameEnd : Bytes4
deriving DecidableEq, Repr, Inhabited

/-- The error kinds, one flat enumeration in the source's order (60_exceptions.md R340, R341). -/
inductive ErrorKind where
  | generic
  | notSameId
  | notSameAris
  | notSameCrcHeader
  | notSameCrcData
  | notSameEnd
  | invalidArgument
  | invalidPadding
  | bufferOverflow
  | nullOrigin
  | nullDestination
deriving DecidableEq, Repr, Inhabited

/-- The status every transaction ends with: `Ok` or one error kind (10_state.md R26). -/
inductive Status where
  | ok
  | error (kind : ErrorKind)
deriving DecidableEq, Repr, Inhabited

end Sys2Proof
end

