-- ==== Sys2Proof/Config.lean ====
section
/-! DEFINITION. The parameters of 00_scope.md R8 that are values, and the free values of the result
ports to which the spec gives no value. -/

namespace Sys2Proof

/-- `GETFIELD_ABSENT` (R8, R104, decision D6): what `GET_FIELD` returns for an absent word. -/
def Config.getFieldAbsent : Byte := 0xFF

/-- `ARIS_LITERAL` (R8, R200): the ASCII bytes of "ARIS". -/
def Config.arisLiteral : Bytes4 := ⟨0x41, 0x52, 0x49, 0x53⟩

/-- `ZERO_KEY` (R8, R150): the sentinel key meaning "no encryption". -/
def Config.zeroKey : Bytes16 := ⟨⟨0, 0, 0, 0⟩, ⟨0, 0, 0, 0⟩, ⟨0, 0, 0, 0⟩, ⟨0, 0, 0, 0⟩⟩

/-- `CRC_POLY` (R8, R121). -/
def Config.crcPoly : BitVec 16 := 0x1021

/-- `CRC_INIT` (R8, R121). -/
def Config.crcInit : BitVec 16 := 0xFFFF

/-- `BLOCK` (R8): the AES block size in bytes. -/
def Config.block : Nat := 16

/-- `UNIT` (R8, R80): the unit of the wire `data_length` field in bytes. -/
def Config.unit : Nat := 8

/-- `ADDR_BYTES` (R8, R28): the size of an address section. -/
def Config.addrBytes : Nat := 6

/-- `MAX_DESTINATIONS` (R9): the most an 8-bit `destinations` field can count. -/
def Config.maxDestinations : Nat := 255

/-- `MAX_DATA_UNITS` (R9): the most an 8-bit `data_length` field can count. -/
def Config.maxDataUnits : Nat := 255

/-! Free values (DESIGN CHOICE, notes/assumptions/3.md; safe). 93_implementation_defined.md U8 gives
`any value` to a result port that is not listed for the status returned. Each constant has no body
and is applied to the counter `freeIndex` of State, so nothing can be proved of what such a port
holds. -/

/-- A value of the `FIELD` port that no rule gives. -/
opaque Config.freeField : Nat → Byte

/-- A value of the `WORD_OUT` port that no rule gives. -/
opaque Config.freeWordOut : Nat → Bytes4

/-- A value of the `CRC` port that no rule gives. -/
opaque Config.freeCrc : Nat → BitVec 16

/-- A value of the `OUT` port that no rule gives. -/
opaque Config.freeOut : Nat → List Byte

/-- A value of the `MARKER_OUT` port that no rule gives. -/
opaque Config.freeMarkerOut : Nat → Bytes4

/-- A value of the `RAW_OUT` port that no rule gives. -/
opaque Config.freeRawOut : Nat → RawFrame

/-- A value of the `CONSUMED` port that no rule gives. -/
opaque Config.freeConsumed : Nat → BitVec 16

/-- A value of the `CHUNK_OUT` port that no rule gives. -/
opaque Config.freeChunkOut : Nat → LogicalChunk

/-- The logical `data_length` of a payload whose byte count does not fit 16 bits, which no rule gives
(DESIGN CHOICE, notes/assumptions/10.md; safe). -/
opaque Config.freeDataLength : Nat → BitVec 16

end Sys2Proof
end

