-- ==== Sys2Proof/Machine/Bytes.lean ====
section
/-! DEFINITION. Byte strings and scalars: the list of a fixed-size string, the string of a list,
big-endian packing (00_scope.md R12, R13; 20_memory.md R55). -/

namespace Sys2Proof

/-- The two bytes in wire order. -/
def Bytes2.toList (v : Bytes2) : List Byte := [v.b0, v.b1]

/-- The four bytes in wire order. -/
def Bytes4.toList (v : Bytes4) : List Byte := [v.b0, v.b1, v.b2, v.b3]

/-- The six bytes in wire order. -/
def Address.toList (v : Address) : List Byte := [v.b0, v.b1, v.b2, v.b3, v.b4, v.b5]

/-- The sixteen bytes in offset order. -/
def Bytes16.toList (v : Bytes16) : List Byte :=
  v.c0.toList ++ v.c1.toList ++ v.c2.toList ++ v.c3.toList

/-- The string of the first two bytes of a list; applied to lists of two bytes only. -/
def Bytes2.ofList (l : List Byte) : Bytes2 := ⟨l.getD 0 0, l.getD 1 0⟩

/-- The string of the first four bytes of a list; applied to lists of four bytes only. -/
def Bytes4.ofList (l : List Byte) : Bytes4 := ⟨l.getD 0 0, l.getD 1 0, l.getD 2 0, l.getD 3 0⟩

/-- The address of the first six bytes of a list; applied to lists of six bytes only. -/
def Address.ofList (l : List Byte) : Address :=
  ⟨l.getD 0 0, l.getD 1 0, l.getD 2 0, l.getD 3 0, l.getD 4 0, l.getD 5 0⟩

/-- The block of the first sixteen bytes of a list; applied to lists of sixteen bytes only. -/
def Bytes16.ofList (l : List Byte) : Bytes16 :=
  ⟨Bytes4.ofList l, Bytes4.ofList (l.drop 4), Bytes4.ofList (l.drop 8), Bytes4.ofList (l.drop 12)⟩

/-- The same operation on each of the four bytes. -/
def Bytes4.map (f : Byte → Byte) (v : Bytes4) : Bytes4 := ⟨f v.b0, f v.b1, f v.b2, f v.b3⟩

/-- The same operation on each of the sixteen bytes. -/
def Bytes16.map (f : Byte → Byte) (v : Bytes16) : Bytes16 :=
  ⟨v.c0.map f, v.c1.map f, v.c2.map f, v.c3.map f⟩

/-- Bytewise exclusive or of two words. -/
def Bytes4.xor (v w : Bytes4) : Bytes4 :=
  ⟨v.b0 ^^^ w.b0, v.b1 ^^^ w.b1, v.b2 ^^^ w.b2, v.b3 ^^^ w.b3⟩

/-- Bytewise exclusive or of two blocks. -/
def Bytes16.xor (v w : Bytes16) : Bytes16 :=
  ⟨v.c0.xor w.c0, v.c1.xor w.c1, v.c2.xor w.c2, v.c3.xor w.c3⟩

/-- Byte 15 of a key, the one the marker cipher uses (44_aris_marker.md R201). -/
def Bytes16.last (k : Bytes16) : Byte := k.c3.b3

/-- `BE32` (00_scope.md R13). -/
def be32 (v : Bytes4) : BitVec 32 :=
  (v.b0.setWidth 32 <<< 24) ||| (v.b1.setWidth 32 <<< 16) ||| (v.b2.setWidth 32 <<< 8) |||
    v.b3.setWidth 32

/-- `UNBE32` (00_scope.md R13). -/
def unbe32 (v : BitVec 32) : Bytes4 :=
  ⟨v.extractLsb' 24 8, v.extractLsb' 16 8, v.extractLsb' 8 8, v.extractLsb' 0 8⟩

/-- `BE16` (00_scope.md R13). -/
def be16 (v : Bytes2) : BitVec 16 := (v.b0.setWidth 16 <<< 8) ||| v.b1.setWidth 16

/-- `UNBE16` (00_scope.md R13). -/
def unbe16 (v : BitVec 16) : Bytes2 := ⟨v.extractLsb' 8 8, v.extractLsb' 0 8⟩

end Sys2Proof
end

