-- ==== Sys2Proof/Machine/AesBlock.lean ====
section
/-! DEFINITION. The AES-128 block primitive (43_aes128_primitive.md, FIPS-197): two pure functions of
a key and a block (42_aes_pkcs7.md R141). -/

namespace Sys2Proof

/-- `SBOX` (R173), in the spec's sixteen rows. -/
def sboxRows : List (List Byte) :=
  [[0x63, 0x7C, 0x77, 0x7B, 0xF2, 0x6B, 0x6F, 0xC5, 0x30, 0x01, 0x67, 0x2B, 0xFE, 0xD7, 0xAB, 0x76],
   [0xCA, 0x82, 0xC9, 0x7D, 0xFA, 0x59, 0x47, 0xF0, 0xAD, 0xD4, 0xA2, 0xAF, 0x9C, 0xA4, 0x72, 0xC0],
   [0xB7, 0xFD, 0x93, 0x26, 0x36, 0x3F, 0xF7, 0xCC, 0x34, 0xA5, 0xE5, 0xF1, 0x71, 0xD8, 0x31, 0x15],
   [0x04, 0xC7, 0x23, 0xC3, 0x18, 0x96, 0x05, 0x9A, 0x07, 0x12, 0x80, 0xE2, 0xEB, 0x27, 0xB2, 0x75],
   [0x09, 0x83, 0x2C, 0x1A, 0x1B, 0x6E, 0x5A, 0xA0, 0x52, 0x3B, 0xD6, 0xB3, 0x29, 0xE3, 0x2F, 0x84],
   [0x53, 0xD1, 0x00, 0xED, 0x20, 0xFC, 0xB1, 0x5B, 0x6A, 0xCB, 0xBE, 0x39, 0x4A, 0x4C, 0x58, 0xCF],
   [0xD0, 0xEF, 0xAA, 0xFB, 0x43, 0x4D, 0x33, 0x85, 0x45, 0xF9, 0x02, 0x7F, 0x50, 0x3C, 0x9F, 0xA8],
   [0x51, 0xA3, 0x40, 0x8F, 0x92, 0x9D, 0x38, 0xF5, 0xBC, 0xB6, 0xDA, 0x21, 0x10, 0xFF, 0xF3, 0xD2]] ++
  [[0xCD, 0x0C, 0x13, 0xEC, 0x5F, 0x97, 0x44, 0x17, 0xC4, 0xA7, 0x7E, 0x3D, 0x64, 0x5D, 0x19, 0x73],
   [0x60, 0x81, 0x4F, 0xDC, 0x22, 0x2A, 0x90, 0x88, 0x46, 0xEE, 0xB8, 0x14, 0xDE, 0x5E, 0x0B, 0xDB],
   [0xE0, 0x32, 0x3A, 0x0A, 0x49, 0x06, 0x24, 0x5C, 0xC2, 0xD3, 0xAC, 0x62, 0x91, 0x95, 0xE4, 0x79],
   [0xE7, 0xC8, 0x37, 0x6D, 0x8D, 0xD5, 0x4E, 0xA9, 0x6C, 0x56, 0xF4, 0xEA, 0x65, 0x7A, 0xAE, 0x08],
   [0xBA, 0x78, 0x25, 0x2E, 0x1C, 0xA6, 0xB4, 0xC6, 0xE8, 0xDD, 0x74, 0x1F, 0x4B, 0xBD, 0x8B, 0x8A],
   [0x70, 0x3E, 0xB5, 0x66, 0x48, 0x03, 0xF6, 0x0E, 0x61, 0x35, 0x57, 0xB9, 0x86, 0xC1, 0x1D, 0x9E],
   [0xE1, 0xF8, 0x98, 0x11, 0x69, 0xD9, 0x8E, 0x94, 0x9B, 0x1E, 0x87, 0xE9, 0xCE, 0x55, 0x28, 0xDF],
   [0x8C, 0xA1, 0x89, 0x0D, 0xBF, 0xE6, 0x42, 0x68, 0x41, 0x99, 0x2D, 0x0F, 0xB0, 0x54, 0xBB, 0x16]]

/-- `INV_SBOX` (R174), in the spec's sixteen rows. -/
def invSboxRows : List (List Byte) :=
  [[0x52, 0x09, 0x6A, 0xD5, 0x30, 0x36, 0xA5, 0x38, 0xBF, 0x40, 0xA3, 0x9E, 0x81, 0xF3, 0xD7, 0xFB],
   [0x7C, 0xE3, 0x39, 0x82, 0x9B, 0x2F, 0xFF, 0x87, 0x34, 0x8E, 0x43, 0x44, 0xC4, 0xDE, 0xE9, 0xCB],
   [0x54, 0x7B, 0x94, 0x32, 0xA6, 0xC2, 0x23, 0x3D, 0xEE, 0x4C, 0x95, 0x0B, 0x42, 0xFA, 0xC3, 0x4E],
   [0x08, 0x2E, 0xA1, 0x66, 0x28, 0xD9, 0x24, 0xB2, 0x76, 0x5B, 0xA2, 0x49, 0x6D, 0x8B, 0xD1, 0x25],
   [0x72, 0xF8, 0xF6, 0x64, 0x86, 0x68, 0x98, 0x16, 0xD4, 0xA4, 0x5C, 0xCC, 0x5D, 0x65, 0xB6, 0x92],
   [0x6C, 0x70, 0x48, 0x50, 0xFD, 0xED, 0xB9, 0xDA, 0x5E, 0x15, 0x46, 0x57, 0xA7, 0x8D, 0x9D, 0x84],
   [0x90, 0xD8, 0xAB, 0x00, 0x8C, 0xBC, 0xD3, 0x0A, 0xF7, 0xE4, 0x58, 0x05, 0xB8, 0xB3, 0x45, 0x06],
   [0xD0, 0x2C, 0x1E, 0x8F, 0xCA, 0x3F, 0x0F, 0x02, 0xC1, 0xAF, 0xBD, 0x03, 0x01, 0x13, 0x8A, 0x6B]] ++
  [[0x3A, 0x91, 0x11, 0x41, 0x4F, 0x67, 0xDC, 0xEA, 0x97, 0xF2, 0xCF, 0xCE, 0xF0, 0xB4, 0xE6, 0x73],
   [0x96, 0xAC, 0x74, 0x22, 0xE7, 0xAD, 0x35, 0x85, 0xE2, 0xF9, 0x37, 0xE8, 0x1C, 0x75, 0xDF, 0x6E],
   [0x47, 0xF1, 0x1A, 0x71, 0x1D, 0x29, 0xC5, 0x89, 0x6F, 0xB7, 0x62, 0x0E, 0xAA, 0x18, 0xBE, 0x1B],
   [0xFC, 0x56, 0x3E, 0x4B, 0xC6, 0xD2, 0x79, 0x20, 0x9A, 0xDB, 0xC0, 0xFE, 0x78, 0xCD, 0x5A, 0xF4],
   [0x1F, 0xDD, 0xA8, 0x33, 0x88, 0x07, 0xC7, 0x31, 0xB1, 0x12, 0x10, 0x59, 0x27, 0x80, 0xEC, 0x5F],
   [0x60, 0x51, 0x7F, 0xA9, 0x19, 0xB5, 0x4A, 0x0D, 0x2D, 0xE5, 0x7A, 0x9F, 0x93, 0xC9, 0x9C, 0xEF],
   [0xA0, 0xE0, 0x3B, 0x4D, 0xAE, 0x2A, 0xF5, 0xB0, 0xC8, 0xEB, 0xBB, 0x3C, 0x83, 0x53, 0x99, 0x61],
   [0x17, 0x2B, 0x04, 0x7E, 0xBA, 0x77, 0xD6, 0x26, 0xE1, 0x69, 0x14, 0x63, 0x55, 0x21, 0x0C, 0x7D]]

/-- `SBOX[a]` (R173): row the high hex digit, column the low hex digit. -/
def sbox (a : Byte) : Byte := (sboxRows.getD (a.toNat / 16) []).getD (a.toNat % 16) 0

/-- `INV_SBOX[a]` (R174). -/
def invSbox (a : Byte) : Byte := (invSboxRows.getD (a.toNat / 16) []).getD (a.toNat % 16) 0

/-- `xtime` (R172): multiplication by 2 in GF(2^8). -/
def xtime (a : Byte) : Byte :=
  if a.getLsbD 7 then (a <<< 1) ^^^ 0x1B else a <<< 1

/-- The xor of `xtime` applied `i` times to `a`, over the set bits `i` of the low `n` bits of `b`. -/
def gfMulBits : Nat → Byte → Byte → Byte
  | 0, _, _ => 0
  | n + 1, a, b => (if b.getLsbD 0 then a else 0) ^^^ gfMulBits n (xtime a) (b >>> 1)

/-- The product of two bytes in GF(2^8) (R172). -/
def gfMul (a b : Byte) : Byte := gfMulBits 8 a b

/-- The affine part of the S-box formula (R173): `b ^ rotl8(b,1) ^ rotl8(b,2) ^ rotl8(b,3) ^
rotl8(b,4) ^ 0x63`. -/
def sboxAffine (b : Byte) : Byte :=
  b ^^^ b.rotateLeft 1 ^^^ b.rotateLeft 2 ^^^ b.rotateLeft 3 ^^^ b.rotateLeft 4 ^^^ 0x63

/-- `RCON` (R176). -/
def rconTable : List Byte := [0x01, 0x02, 0x04, 0x08, 0x10, 0x20, 0x40, 0x80, 0x1B, 0x36]

/-- `RCON[j]` (R176). -/
def rcon (j : Nat) : Byte := rconTable.getD j 0

/-- `RotWord` (R175). -/
def rotWord (t : Bytes4) : Bytes4 := ⟨t.b1, t.b2, t.b3, t.b0⟩

/-- `SubWord` (R175). -/
def subWord (t : Bytes4) : Bytes4 := t.map sbox

/-- The word `t` of R175 when `i mod 4 == 0`: `RotWord`, `SubWord`, and the round constant into byte
0. -/
def keyScheduleCore (t : Bytes4) (rc : Byte) : Bytes4 :=
  (subWord (rotWord t)).xor ⟨rc, 0, 0, 0⟩

/-- Four words of the key expansion (R175), from the four before them. -/
def nextRoundKey (k : Bytes16) (rc : Byte) : Bytes16 :=
  let w0 := k.c0.xor (keyScheduleCore k.c3 rc)
  let w1 := k.c1.xor w0
  let w2 := k.c2.xor w1
  let w3 := k.c3.xor w2
  ⟨w0, w1, w2, w3⟩

/-- Round key `r` of key `k` (R175): words `4*r` to `4*r + 3`. -/
def roundKey (k : Bytes16) : Nat → Bytes16
  | 0 => k
  | r + 1 => nextRoundKey (roundKey k r) (rcon r)

/-- `AddRoundKey` (R177). -/
def addRoundKey (s rk : Bytes16) : Bytes16 := s.xor rk

/-- `SubBytes` (R177). -/
def subBytes (s : Bytes16) : Bytes16 := s.map sbox

/-- `ShiftRows` (R177): row `r` rotated left by `r` columns. -/
def shiftRows (s : Bytes16) : Bytes16 :=
  ⟨⟨s.c0.b0, s.c1.b1, s.c2.b2, s.c3.b3⟩,
   ⟨s.c1.b0, s.c2.b1, s.c3.b2, s.c0.b3⟩,
   ⟨s.c2.b0, s.c3.b1, s.c0.b2, s.c1.b3⟩,
   ⟨s.c3.b0, s.c0.b1, s.c1.b2, s.c2.b3⟩⟩

/-- Three times a byte in GF(2^8) (R177). -/
def times3 (a : Byte) : Byte := xtime a ^^^ a

/-- One column of `MixColumns` (R177). -/
def mixColumn (a : Bytes4) : Bytes4 :=
  ⟨xtime a.b0 ^^^ times3 a.b1 ^^^ a.b2 ^^^ a.b3,
   a.b0 ^^^ xtime a.b1 ^^^ times3 a.b2 ^^^ a.b3,
   a.b0 ^^^ a.b1 ^^^ xtime a.b2 ^^^ times3 a.b3,
   times3 a.b0 ^^^ a.b1 ^^^ a.b2 ^^^ xtime a.b3⟩

/-- `MixColumns` (R177). -/
def mixColumns (s : Bytes16) : Bytes16 :=
  ⟨mixColumn s.c0, mixColumn s.c1, mixColumn s.c2, mixColumn s.c3⟩

/-- `InvSubBytes` (R179). -/
def invSubBytes (s : Bytes16) : Bytes16 := s.map invSbox

/-- `InvShiftRows` (R179): row `r` rotated right by `r` columns. -/
def invShiftRows (s : Bytes16) : Bytes16 :=
  ⟨⟨s.c0.b0, s.c3.b1, s.c2.b2, s.c1.b3⟩,
   ⟨s.c1.b0, s.c0.b1, s.c3.b2, s.c2.b3⟩,
   ⟨s.c2.b0, s.c1.b1, s.c0.b2, s.c3.b3⟩,
   ⟨s.c3.b0, s.c2.b1, s.c1.b2, s.c0.b3⟩⟩

/-- One column of `InvMixColumns` (R179). -/
def invMixColumn (a : Bytes4) : Bytes4 :=
  ⟨gfMul a.b0 14 ^^^ gfMul a.b1 11 ^^^ gfMul a.b2 13 ^^^ gfMul a.b3 9,
   gfMul a.b0 9 ^^^ gfMul a.b1 14 ^^^ gfMul a.b2 11 ^^^ gfMul a.b3 13,
   gfMul a.b0 13 ^^^ gfMul a.b1 9 ^^^ gfMul a.b2 14 ^^^ gfMul a.b3 11,
   gfMul a.b0 11 ^^^ gfMul a.b1 13 ^^^ gfMul a.b2 9 ^^^ gfMul a.b3 14⟩

/-- `InvMixColumns` (R179). -/
def invMixColumns (s : Bytes16) : Bytes16 :=
  ⟨invMixColumn s.c0, invMixColumn s.c1, invMixColumn s.c2, invMixColumn s.c3⟩

/-- Rounds 1 to `n` of the cipher (R178). -/
def encRounds (k : Bytes16) : Nat → Bytes16 → Bytes16
  | 0, s => s
  | n + 1, s =>
    addRoundKey (mixColumns (shiftRows (subBytes (encRounds k n s)))) (roundKey k (n + 1))

/-- Rounds `n` down to 1 of the inverse cipher (R180). -/
def decRounds (k : Bytes16) : Nat → Bytes16 → Bytes16
  | 0, s => s
  | n + 1, s =>
    decRounds k n
      (invMixColumns (addRoundKey (invSubBytes (invShiftRows s)) (roundKey k (n + 1))))

/-- `AesEncBlock(K, B)` (R178). -/
def aesEncBlock (k b : Bytes16) : Bytes16 :=
  addRoundKey (shiftRows (subBytes (encRounds k 9 (addRoundKey b (roundKey k 0)))))
    (roundKey k 10)

/-- `AesDecBlock(K, B)` (R180). -/
def aesDecBlock (k b : Bytes16) : Bytes16 :=
  addRoundKey
    (invSubBytes (invShiftRows (decRounds k 9 (addRoundKey b (roundKey k 10)))))
    (roundKey k 0)

end Sys2Proof
end

