-- ==== Sys2Proof/Machine/Flags.lean ====
section
/-! DEFINITION. The engine has no flags or condition codes (10_state.md R23); its one outcome
indicator is the status. Here: the status codes (60_exceptions.md R341), the classes of error (R344),
and the checks an operation makes. -/

namespace Sys2Proof

/-- The code of an error kind on an 8-bit `STATUS` port (R341). -/
def ErrorKind.code : ErrorKind → Byte
  | .generic => 1
  | .notSameId => 2
  | .notSameAris => 3
  | .notSameCrcHeader => 4
  | .notSameCrcData => 5
  | .notSameEnd => 6
  | .invalidArgument => 7
  | .invalidPadding => 8
  | .bufferOverflow => 9
  | .nullOrigin => 10
  | .nullDestination => 11

/-- The code of a status on an 8-bit `STATUS` port (R341). -/
def Status.code : Status → Byte
  | .ok => 0
  | .error k => k.code

/-- The classes of error of R344. -/
inductive ErrorClass where
  | corruptedOnWire
  | wrongNetworkOrKey
  | malformedCall
  | wrongKeyOrCiphertext
  | lengthGuard
deriving DecidableEq, Repr

/-- The class of an error kind (R344). `BufferOverflow`, which R344 explains for DECODE as a truncated
or mis-framed input, and which ENCODE and PACK raise for a count that does not fit (R340), has a class
of its own, the "length arithmetic overflow guard". -/
def ErrorKind.errorClass : ErrorKind → ErrorClass
  | .notSameCrcHeader => .corruptedOnWire
  | .notSameCrcData => .corruptedOnWire
  | .notSameId => .wrongNetworkOrKey
  | .notSameAris => .wrongNetworkOrKey
  | .notSameEnd => .wrongNetworkOrKey
  | .invalidArgument => .malformedCall
  | .nullOrigin => .malformedCall
  | .nullDestination => .malformedCall
  | .generic => .malformedCall
  | .invalidPadding => .wrongKeyOrCiphertext
  | .bufferOverflow => .lengthGuard

/-- `if not holds: raise kind`, one check of an operation (R345). -/
def check (holds : Bool) (kind : ErrorKind) : Except ErrorKind Unit :=
  if holds then .ok () else .error kind

end Sys2Proof
end

