-- ==== Sys2Proof/Syntax.lean ====
section
/-! DEFINITION. The instructions: one constructor per row of spec/opcode_table.json, and where an
instruction is presented. -/

namespace Sys2Proof

/-- The fourteen rows of spec/opcode_table.json. The twelve operations (30_encoding.md R85) take
their operands from ports, so the instruction is the `OP` code alone. The two wire-word rows (R89)
are the packed control words of a frame (R74, R78) and carry their fields. -/
inductive Instr where
  | getField
  | setField
  | crc16
  | aesEncrypt
  | aesDecrypt
  | arisDecrypt
  | arisEncrypt
  | decode
  | encode
  | unpack
  | pack
  | serialize
  | ctrlWord1 (fields : ControlWord1Fields)
  | ctrlWord2 (fields : ControlWord2Wire)
deriving DecidableEq, Repr

/-- What the bytes to be decoded are: the `OP` port of a transaction (30_encoding.md R85), or a
control word of a frame. A control word has no fixed bit (R74, R78), so only its place in the frame
says which of the two it is (R90). -/
inductive Source where
  | opPort
  | ctrlWord1
  | ctrlWord2
deriving DecidableEq, Repr, Inhabited

end Sys2Proof
end

