-- ==== Sys2Proof/Machine/State.lean ====
section
/-! DEFINITION. The state of the machine: the operand ports a transaction reads, the result ports it
drives (10_state.md R24, R25), the decoder's transient values (R22, R37, R39), and two fields of the
model's own. The engine itself retains nothing between transactions (R20). -/

namespace Sys2Proof.Machine

/-- Faults: there are none. An operation that cannot complete ends with an error status, which is a
next state (60_exceptions.md R345, R350), and no input leaves the engine stuck
(93_implementation_defined.md, end of part 1). -/
inductive Fault where
deriving DecidableEq, Repr

/-- Refusals: why an instruction has no meaning on a state. -/
inductive Refusal where
  /-- Raised by an arm of `exec` whose instruction has no meaning yet; safe. -/
  | notModelled (mnemonic : String)
  /-- Raised by GET_FIELD with a present word, and by SET_FIELD, when SHIFT is 32 or more: outside the
  domain of the two operations, for which the spec asks the model to refuse (40_bitfield.md R105,
  R111; 60_exceptions.md R343; entry U1); safe. -/
  | shiftOutOfDomain (mnemonic : String)
deriving DecidableEq, Repr

/-- The operand ports (10_state.md R24). -/
structure OperandPorts where
  op : Byte
  word : Bytes4
  wordPresent : Bool
  mask : BitVec 32
  shift : Byte
  data8 : Byte
  input : List Byte
  key : Bytes16
  marker : Bytes4
  netid : Bytes4
  rawIn : RawFrame
  chunkIn : LogicalChunk
deriving DecidableEq, Repr

/-- The result ports (10_state.md R25), `STATUS` (R26) among them. -/
structure ResultPorts where
  status : Status
  field : Byte
  wordOut : Bytes4
  crc : BitVec 16
  out : List Byte
  markerOut : Bytes4
  rawOut : RawFrame
  consumed : BitVec 16
  chunkOut : LogicalChunk
deriving DecidableEq, Repr

/-- The Frame Decoder's transient values: the read cursor `p` (R22), the three structural fields it
takes from control word 1 (45_frame_decoder.md R224) and the `data_length` units it takes from control
word 2 (R230). -/
structure DecoderWork where
  cursor : Nat
  destinations : Byte
  fromRelay : Byte
  moreHeader : Byte
  dataUnits : Byte
deriving DecidableEq, Repr

/-- The machine. `source` (which of the OP port and the two control words the next step takes) and
`freeIndex` (how many free values were drawn) are the model's own fields
(notes/assumptions/5.md and 3.md). -/
structure State where
  operands : OperandPorts
  results : ResultPorts
  work : DecoderWork
  source : Source
  freeIndex : Nat
deriving DecidableEq, Repr

/-- The decoder's values before it has read anything: `p` is 0 (R39), and nothing is retained from an
earlier frame (R380). -/
def DecoderWork.start : DecoderWork where
  cursor := 0
  destinations := 0
  fromRelay := 0
  moreHeader := 0
  dataUnits := 0

/-- A RawFrame of zero bytes with no optional section: the value of the frame ports at reset
(DESIGN CHOICE, notes/assumptions/1.md, 2.md). -/
def zeroRaw : RawFrame where
  id := ⟨0, 0, 0, 0⟩
  aris := ⟨0, 0, 0, 0⟩
  ctrl := ⟨0, 0, 0, 0⟩
  origin := ⟨0, 0, 0, 0, 0, 0⟩
  destinationA := ⟨0, 0, 0, 0, 0, 0⟩
  destinationsB := []
  destinationC := none
  ctrl2 := none
  crcHeader := ⟨0, 0⟩
  data := none
  crcData := none
  frameEnd := ⟨0, 0, 0, 0⟩

/-- A LogicalChunk of zeros with no destination and no data: the value of the chunk ports at reset
(DESIGN CHOICE, notes/assumptions/1.md, 2.md). -/
def zeroChunk : LogicalChunk where
  id := ⟨0, 0, 0, 0⟩
  aris := ⟨0, 0, 0, 0⟩
  ctrl := ⟨0, 0, 0, 0, 0, 0, 0, 0, 0⟩
  origin := ⟨0, 0, 0, 0, 0, 0⟩
  destinationA := ⟨0, 0, 0, 0, 0, 0⟩
  destinationsB := []
  destinationC := none
  ctrl2 := ⟨0, 0, 0, 0⟩
  crcHeader := ⟨0, 0⟩
  data := []
  crcData := ⟨0, 0⟩
  frameEnd := ⟨0, 0, 0, 0⟩

/-- The operand ports at reset, which R39 leaves undefined (DESIGN CHOICE,
notes/assumptions/1.md). `OP` is 0x00, the code left unassigned "so that an all-zero command is not
an operation" (decision D3). -/
def OperandPorts.reset : OperandPorts where
  op := 0
  word := ⟨0, 0, 0, 0⟩
  wordPresent := false
  mask := 0
  shift := 0
  data8 := 0
  input := []
  key := Config.zeroKey
  marker := ⟨0, 0, 0, 0⟩
  netid := ⟨0, 0, 0, 0⟩
  rawIn := zeroRaw
  chunkIn := zeroChunk

/-- The result ports at reset, which R39 leaves undefined (DESIGN CHOICE,
notes/assumptions/2.md). -/
def ResultPorts.reset : ResultPorts where
  status := .ok
  field := 0
  wordOut := ⟨0, 0, 0, 0⟩
  crc := 0
  out := []
  markerOut := ⟨0, 0, 0, 0⟩
  rawOut := zeroRaw
  consumed := 0
  chunkOut := zeroChunk

/-- The machine right after reset (R39, R380): ready to take a transaction, remembering nothing. -/
def State.reset : State where
  operands := .reset
  results := .reset
  work := .start
  source := .opPort
  freeIndex := 0

end Sys2Proof.Machine
end

