-- ==== Sys2Proof/Machine/Ops.lean ====
section
/-! DEFINITION. The named operations over spans and ports: the cursor read and the append of
20_memory.md R52, R53; the end of a transaction with `Ok` or with an error (60_exceptions.md R345).
An error is how the engine takes an exception: there is no trap entry and no return (R350). -/

namespace Sys2Proof.Machine

/-- `MemRead(p, n)` (R52): the test is made at each read. -/
def memRead (span : List Byte) (p n : Nat) : Except ErrorKind (List Byte) :=
  if span.length < p + n then .error .bufferOverflow else .ok ((span.drop p).take n)

/-- `MemWrite(p, n, v)` (R53), the append of a section `v` to the output built so far; `p` is always
the length of the output and `n` the length of `v`. -/
def memWrite (out v : List Byte) : List Byte := out ++ v

/-- A read of two bytes at an offset. -/
def readBytes2 (span : List Byte) (p : Nat) : Except ErrorKind Bytes2 :=
  (memRead span p 2).map Bytes2.ofList

/-- A read of four bytes at an offset. -/
def readBytes4 (span : List Byte) (p : Nat) : Except ErrorKind Bytes4 :=
  (memRead span p 4).map Bytes4.ofList

/-- A read of an address at an offset. -/
def readAddress (span : List Byte) (p : Nat) : Except ErrorKind Address :=
  (memRead span p 6).map Address.ofList

/-- Reads of `count` addresses one after another, in order (45_frame_decoder.md R226). -/
def readAddresses (span : List Byte) : Nat → Nat → Except ErrorKind (List Address)
  | _, 0 => .ok []
  | p, count + 1 => do
    let a ← readAddress span p
    let rest ← readAddresses span (p + 6) count
    .ok (a :: rest)

/-- An optional section (10_state.md R29): the read is made when the section is present, and the
section is `absent` otherwise, no byte being read. -/
def readOptional {α : Type} (present : Bool) (read : Except ErrorKind α) :
    Except ErrorKind (Option α) :=
  if present then read.map some else .ok none

/-- The result ports with no value given by any rule: every port but `STATUS` holds a free value
(93_implementation_defined.md U8; DESIGN CHOICE, notes/assumptions/3.md; safe). -/
def State.undriven (s : State) : ResultPorts where
  status := s.results.status
  field := Config.freeField s.freeIndex
  wordOut := Config.freeWordOut s.freeIndex
  crc := Config.freeCrc s.freeIndex
  out := Config.freeOut s.freeIndex
  markerOut := Config.freeMarkerOut s.freeIndex
  rawOut := Config.freeRawOut s.freeIndex
  consumed := Config.freeConsumed s.freeIndex
  chunkOut := Config.freeChunkOut s.freeIndex

/-- The end of a transaction: the result ports are driven, the operand ports are as they were
(20_memory.md R54), and the decoder's values are discarded (R22, R380; DEDUCED,
notes/assumptions/7.md). -/
def State.finish (s : State) (results : ResultPorts) : State where
  operands := s.operands
  results := results
  work := .start
  source := s.source
  freeIndex := s.freeIndex + 1

/-- The end of a transaction with status `Ok` and the results given; the caller of this operation
starts from `undriven` and sets the ports R25 lists. -/
def State.complete (s : State) (results : ResultPorts) : State :=
  s.finish { results with status := .ok }

/-- `raise <Error>` (60_exceptions.md R345): `STATUS` takes the kind, every other result port has no
defined value, and nothing else of the engine changes (R350). -/
def State.raise (s : State) (kind : ErrorKind) : State :=
  s.finish { s.undriven with status := .error kind }

/-- The end of an operation that either has a result or has raised an error (R345): `drive` sets the
result ports of the operation. -/
def State.conclude {α : Type} (s : State) (result : Except ErrorKind α)
    (drive : ResultPorts → α → ResultPorts) : State :=
  match result with
  | .ok v => s.complete (drive s.undriven v)
  | .error kind => s.raise kind

end Sys2Proof.Machine
end

