-- ==== Sys2Proof/Machine/Aes.lean ====
section
/-! DEFINITION. The AES-128-ECB + PKCS#7 Engine (42_aes_pkcs7.md). -/

namespace Sys2Proof

/-- `IsZeroKey(k)` (R150): all sixteen bytes are 00. Tested by the frame and pack layer only. -/
def isZeroKey (k : Bytes16) : Bool := k == Config.zeroKey

/-- The first `n` blocks of a span, each of sixteen bytes (R144, R152). -/
def toBlocks : Nat → List Byte → List Bytes16
  | 0, _ => []
  | n + 1, l => Bytes16.ofList (l.take Config.block) :: toBlocks n (l.drop Config.block)

/-- The bytes of a sequence of blocks. -/
def ofBlocks (blocks : List Bytes16) : List Byte := blocks.flatMap Bytes16.toList

/-- The pad count of R144, `16 - (L mod 16)`. -/
def padCount (length : Nat) : Nat := Config.block - length % Config.block

/-- The padded plaintext of R144. -/
def pkcs7Pad (input : List Byte) : List Byte :=
  input ++ List.replicate (padCount input.length) (BitVec.ofNat 8 (padCount input.length))

/-- `AesEncrypt(key, input)` (R144): ECB over the padded input. -/
def aesEncrypt (key : Bytes16) (input : List Byte) : List Byte :=
  let padded := pkcs7Pad input
  ofBlocks ((toBlocks (padded.length / Config.block) padded).map (aesEncBlock key))

/-- The padding test and the stripping of R152, on decrypted bytes. -/
def pkcs7Strip (plain : List Byte) : Except ErrorKind (List Byte) := do
  let pad := (plain.getD (plain.length - 1) 0).toNat
  check (pad ≠ 0 && pad ≤ Config.block) .invalidPadding
  check ((plain.drop (plain.length - pad)).all (fun b => b.toNat == pad)) .invalidPadding
  .ok (plain.take (plain.length - pad))

/-- The ECB decryption of R152, before the padding is looked at. -/
def aesDecryptBlocks (key : Bytes16) (input : List Byte) : List Byte :=
  ofBlocks ((toBlocks (input.length / Config.block) input).map (aesDecBlock key))

/-- `AesDecrypt(key, input)` (R152): the length test first, the padding tests after all blocks are
decrypted (R153). -/
def aesDecrypt (key : Bytes16) (input : List Byte) : Except ErrorKind (List Byte) := do
  check (input.length ≠ 0 && input.length % Config.block == 0) .invalidArgument
  pkcs7Strip (aesDecryptBlocks key input)

namespace Machine

/-- AES_ENCRYPT (R144): never fails (R143); the all-zero key gets no special treatment (R145, R150). -/
def execAesEncrypt (s : State) : Host.Outcome State Fault Refusal :=
  .next (s.complete { s.undriven with out := aesEncrypt s.operands.key s.operands.input })

/-- AES_DECRYPT (R152): `Ok`, `InvalidArgument` or `InvalidPadding` (R151); the all-zero key gets no
special treatment (R154). -/
def execAesDecrypt (s : State) : Host.Outcome State Fault Refusal :=
  .next (s.conclude (aesDecrypt s.operands.key s.operands.input)
    (fun r out => { r with out := out }))

end Machine

end Sys2Proof
end

