-- ==== Sys2Proof/Machine/Aris.lean ====
section
/-! DEFINITION. The ARIS Marker Cipher (44_aris_marker.md). -/

namespace Sys2Proof

/-- The candidate marker of R202: `last` is taken from each byte, mod 256, when it is not 0. -/
def arisCandidate (key : Bytes16) (marker : Bytes4) : Bytes4 :=
  if key.last ≠ 0 then marker.map (fun b => b - key.last) else marker

/-- `ArisDecrypt(key, marker)` (R202): succeeds iff the candidate is the literal. -/
def arisDecrypt (key : Bytes16) (marker : Bytes4) : Except ErrorKind Unit :=
  check (arisCandidate key marker == Config.arisLiteral) .notSameAris

/-- `ArisEncrypt(key, marker)` (R203): `last` is added to each byte, mod 256, when it is not 0. -/
def arisEncrypt (key : Bytes16) (marker : Bytes4) : Bytes4 :=
  if key.last ≠ 0 then marker.map (fun b => b + key.last) else marker

namespace Machine

/-- ARIS_DECRYPT (R202): no result but the status. -/
def execArisDecrypt (s : State) : Host.Outcome State Fault Refusal :=
  .next (s.conclude (arisDecrypt s.operands.key s.operands.marker) (fun r _ => r))

/-- ARIS_ENCRYPT (R203): always succeeds. -/
def execArisEncrypt (s : State) : Host.Outcome State Fault Refusal :=
  .next (s.complete { s.undriven with
    markerOut := arisEncrypt s.operands.key s.operands.marker })

end Machine

end Sys2Proof
end

