-- ==== Sys2Proof/Machine/Operands.lean ====
section
/-! DEFINITION. The operand forms of the engine: bit fields of a control word. Field extraction and
insertion (40_bitfield.md R101, R108), the descriptor table (30_encoding.md R75, R79), and the packing
and unpacking of the two control words (R266, R272, R301, R302). -/

namespace Sys2Proof

/-- Field extraction, `((BE32(w) & mask) >> shift)[7:0]` (R101, R103): the mask first, the shift
second (R102, conflict C1). -/
def getField (w : Bytes4) (mask : BitVec 32) (shift : Nat) : Byte :=
  ((be32 w &&& mask) >>> shift).setWidth 8

/-- Field insertion, `BE32(w) | trunc_32(zext_40(data) << shift)` (R108): it neither clears (R109)
nor masks (R110). -/
def setField (w : Bytes4) (data : Byte) (shift : Nat) : Bytes4 :=
  unbe32 (be32 w ||| (data.setWidth 40 <<< shift).setWidth 32)

/-- One row of the field descriptor table (R27, R75, R79). -/
structure FieldDescriptor where
  mask : BitVec 32
  shift : Nat
  width : Nat
deriving DecidableEq, Repr

/-- `version` (R75). -/
def versionField : FieldDescriptor := ⟨0xF0000000, 28, 4⟩
/-- `destinations` (R75). -/
def destinationsField : FieldDescriptor := ⟨0x0FF00000, 20, 8⟩
/-- `option` (R75). -/
def optionField : FieldDescriptor := ⟨0x000E0000, 17, 3⟩
/-- `from` (R75). -/
def fromField : FieldDescriptor := ⟨0x00010000, 16, 1⟩
/-- `sequence` (R75). -/
def sequenceField : FieldDescriptor := ⟨0x0000FC00, 10, 6⟩
/-- `retry` (R75). -/
def retryField : FieldDescriptor := ⟨0x00000200, 9, 1⟩
/-- `more_data` (R75). -/
def moreDataField : FieldDescriptor := ⟨0x00000100, 8, 1⟩
/-- `identifier` (R75). -/
def identifierField : FieldDescriptor := ⟨0x000000FE, 1, 7⟩
/-- `more_header` (R75). -/
def moreHeaderField : FieldDescriptor := ⟨0x00000001, 0, 1⟩
/-- `data_length` (R79). -/
def dataLengthField : FieldDescriptor := ⟨0xFF000000, 24, 8⟩
/-- `feature` (R79). -/
def featureField : FieldDescriptor := ⟨0x00800000, 23, 1⟩
/-- `neg_answer` (R79). -/
def negAnswerField : FieldDescriptor := ⟨0x00400000, 22, 1⟩
/-- `freq_switch` (R79). -/
def freqSwitchField : FieldDescriptor := ⟨0x00200000, 21, 1⟩

/-- The nine descriptors of control word 1, most significant field first (R75). -/
def ctrl1Descriptors : List FieldDescriptor :=
  [versionField, destinationsField, optionField, fromField, sequenceField, retryField,
    moreDataField, identifierField, moreHeaderField]

/-- The four descriptors of control word 2, most significant field first (R79). -/
def ctrl2Descriptors : List FieldDescriptor :=
  [dataLengthField, featureField, negAnswerField, freqSwitchField]

/-- `GetField` with a descriptor (R77). -/
def FieldDescriptor.get (f : FieldDescriptor) (w : Bytes4) : Byte := getField w f.mask f.shift

/-- `SetField` at a descriptor's shift (R77). -/
def FieldDescriptor.set (f : FieldDescriptor) (w : Bytes4) (data : Byte) : Bytes4 :=
  setField w data f.shift

/-- The nine fields of control word 1 (R301). -/
def unpackCtrl1 (w : Bytes4) : ControlWord1Fields where
  version := versionField.get w
  destinations := destinationsField.get w
  optionBits := optionField.get w
  fromRelay := fromField.get w
  sequenceNo := sequenceField.get w
  retry := retryField.get w
  moreData := moreDataField.get w
  identifier := identifierField.get w
  moreHeader := moreHeaderField.get w

/-- The four fields of control word 2 (R302) and its reserved bits (R78). -/
def unpackCtrl2 (w : Bytes4) : ControlWord2Wire where
  dataUnits := dataLengthField.get w
  feature := featureField.get w
  negAnswer := negAnswerField.get w
  freqSwitch := freqSwitchField.get w
  reserved := (be32 w).extractLsb' 0 21

/-- A control word of zeros, from which each word is built (R266, R272, R385). -/
def zeroWord : Bytes4 := ⟨0, 0, 0, 0⟩

/-- The word `w` of R266: one `SetField` per field, in the encoder's order, from zero. -/
def packCtrl1 (c : ControlWord1Fields) : Bytes4 :=
  let w := versionField.set zeroWord c.version
  let w := destinationsField.set w c.destinations
  let w := optionField.set w c.optionBits
  let w := fromField.set w c.fromRelay
  let w := sequenceField.set w c.sequenceNo
  let w := retryField.set w c.retry
  let w := moreDataField.set w c.moreData
  let w := identifierField.set w c.identifier
  moreHeaderField.set w c.moreHeader

/-- The word `w2` of R272: one `SetField` per field, in the encoder's order, from zero. -/
def packCtrl2 (units feature negAnswer freqSwitch : Byte) : Bytes4 :=
  let w := dataLengthField.set zeroWord units
  let w := featureField.set w feature
  let w := negAnswerField.set w negAnswer
  freqSwitchField.set w freqSwitch

end Sys2Proof
end

