-- ==== Sys2Proof/Machine/BitField.lean ====
section
/-! DEFINITION. The BitField Codec's two operations (40_bitfield.md). -/

namespace Sys2Proof.Machine

/-- Whether `SHIFT` is in the domain of the two operations (R101, R105, R108, R111). -/
def shiftInDomain (shift : Byte) : Bool := decide (shift.toNat ≤ 31)

/-- GET_FIELD: the sentinel when the word is absent, whatever the other operands hold (R104); the
field when it is present and `SHIFT <= 31` (R101); outside the operation's domain otherwise (R105,
entry U1). -/
def execGetField (s : State) : Host.Outcome State Fault Refusal :=
  if s.operands.wordPresent then
    if shiftInDomain s.operands.shift then
      .next (s.complete { s.undriven with
        field := getField s.operands.word s.operands.mask s.operands.shift.toNat })
    else .refused (.shiftOutOfDomain "GET_FIELD")
  else .next (s.complete { s.undriven with field := Config.getFieldAbsent })

/-- SET_FIELD when `SHIFT <= 31` (R108); outside the operation's domain otherwise (R111, entry U1). -/
def execSetField (s : State) : Host.Outcome State Fault Refusal :=
  if shiftInDomain s.operands.shift then
    .next (s.complete { s.undriven with
      wordOut := setField s.operands.word s.operands.data8 s.operands.shift.toNat })
  else .refused (.shiftOutOfDomain "SET_FIELD")

end Sys2Proof.Machine
end

