-- ==== Sys2Proof/Machine/FrameDecoder.lean ====
section
/-! DEFINITION. The layout of a frame (30_encoding.md R72, R73) and the Frame Decoder
(45_frame_decoder.md). -/

namespace Sys2Proof

/-- 1 when the test holds, 0 when not: the `f`, `m`, `h` of R72. -/
def count (present : Bool) : Nat := if present then 1 else 0

/-- The length `H` of the header region (R73), with `d` addresses in `destinations_b`, and with or
without `destination_c` and `ctrl2`. -/
def headerLen (d : Nat) (f m : Bool) : Nat := 24 + 6 * d + 6 * count f + 4 * count m

/-- The byte length `n` of the data section (R72, R80): 8 bytes a unit when `ctrl2` is present. -/
def dataLen (m : Bool) (units : Nat) : Nat := if m then Config.unit * units else 0

/-- `FrameLen` (R72), with `n` the byte length of the data section. -/
def frameLen (d : Nat) (f m : Bool) (n : Nat) : Nat :=
  8 + 4 + 12 + 6 * d + 6 * count f + 4 * count m + 2 + n + 2 * count (decide (0 < n)) + 4

/-- The units of the `data_length` field (R78, R80): those of control word 2, none without one. -/
def wireUnits (ctrl2 : Option Bytes4) : Nat :=
  match ctrl2 with
  | some w => (dataLengthField.get w).toNat
  | none => 0

/-- The bytes of the header region of a RawFrame (00_scope.md R19; 47_logical_pack.md R308): all that
stands before `crc_header`. -/
def RawFrame.headerBytes (r : RawFrame) : List Byte :=
  r.id.toList ++ r.aris.toList ++ r.ctrl.toList ++ r.origin.toList ++ r.destinationA.toList ++
    r.destinationsB.flatMap Address.toList ++
    (match r.destinationC with
      | some a => a.toList
      | none => []) ++
    (match r.ctrl2 with
      | some w => w.toList
      | none => [])

/-- DECODE on a span (R233), with the offsets the rules give each read: steps 1 to 11, R222 to R232.
The result is the frame and the number of bytes that formed it. -/
def decodeFrame (input : List Byte) (key : Bytes16) (netid : Bytes4) :
    Except ErrorKind (RawFrame × Nat) := do
  -- step 1 (R222)
  let id ← Machine.readBytes4 input 0
  check (id == netid) .notSameId
  -- step 2 (R223)
  let aris ← Machine.readBytes4 input 4
  arisDecrypt key aris
  -- step 3 (R224)
  let ctrl ← Machine.readBytes4 input 8
  let d := (destinationsField.get ctrl).toNat
  let f := fromField.get ctrl == 1
  let m := moreHeaderField.get ctrl == 1
  -- step 4 (R225)
  let origin ← Machine.readAddress input 12
  let destinationA ← Machine.readAddress input 18
  -- step 5 (R226)
  let destinationsB ← Machine.readAddresses input 24 d
  -- step 6 (R227)
  let destinationC ← Machine.readOptional f (Machine.readAddress input (24 + 6 * d))
  -- step 7 (R228)
  let ctrl2 ← Machine.readOptional m (Machine.readBytes4 input (24 + 6 * d + 6 * count f))
  -- step 8 (R229)
  let h := headerLen d f m
  let crcHeader ← Machine.readBytes2 input h
  check (be16 crcHeader == crc16 (input.take h)) .notSameCrcHeader
  -- step 9 (R230)
  let n := Config.unit * wireUnits ctrl2
  let hasData := decide (0 < n)
  let data ← Machine.readOptional hasData (Machine.memRead input (h + 2) n)
  let crcData ← Machine.readOptional hasData (Machine.readBytes2 input (h + 2 + n))
  check (match data, crcData with
    | some bytes, some stored => be16 stored == crc16 bytes
    | _, _ => true) .notSameCrcData
  -- step 10 (R231)
  let p := h + 2 + n + 2 * count hasData
  let frameEnd ← Machine.readBytes4 input p
  check (frameEnd == netid) .notSameEnd
  -- step 11 (R232)
  .ok (⟨id, aris, ctrl, origin, destinationA, destinationsB, destinationC, ctrl2, crcHeader, data,
    crcData, frameEnd⟩, p + 4)

namespace Machine

/-- DECODE (R233): `RAW_OUT` and `CONSUMED` on success (R220, R232). -/
def execDecode (s : State) : Host.Outcome State Fault Refusal :=
  .next (s.conclude (decodeFrame s.operands.input s.operands.key s.operands.netid)
    (fun r v => { r with rawOut := v.1, consumed := BitVec.ofNat 16 v.2 }))

end Machine

end Sys2Proof
end

