-- ==== Sys2Proof/Machine/Logical.lean ====
section
/-! DEFINITION. Logical Unpack / Pack (47_logical_pack.md), with the encoder steps that PACK shares
with the Frame Encoder (46_frame_encoder.md R265 to R276). -/

namespace Sys2Proof

/-- The logical control word 2 of UNPACK before the data is looked at (R302): the four fields of
`ctrl2` when the `more_header` field is 1, all zero when it is not. The word must be there when it
is 1. -/
def unpackCtrl2Fields (moreHeader : Byte) (ctrl2 : Option Bytes4) :
    Except ErrorKind ControlWord2Fields :=
  if moreHeader == 1 then
    match ctrl2 with
    | none => .error .generic
    | some w =>
      .ok ⟨(dataLengthField.get w).setWidth 16, featureField.get w, negAnswerField.get w,
        freqSwitchField.get w⟩
  else .ok ⟨0, 0, 0, 0⟩

/-- The payload of a received frame (R304): passed through under the null key, decrypted under any
other. -/
def openPayload (key : Bytes16) (data : List Byte) : Except ErrorKind (List Byte) :=
  if isZeroKey key then .ok data else aesDecrypt key data

/-- The logical `data_length` of a payload of `n` bytes (R304), a 16-bit value (10_state.md R34). A
RawFrame that no DECODE gives can hold more bytes than 16 bits count, and the spec states no value
there: it is free (DESIGN CHOICE, notes/assumptions/10.md; safe). -/
def logicalDataLength (n : Nat) : BitVec 16 :=
  if n < 65536 then BitVec.ofNat 16 n else Config.freeDataLength n

/-- UNPACK on a RawFrame (R305). -/
def unpackFrame (r : RawFrame) (key : Bytes16) : Except ErrorKind LogicalChunk := do
  let ctrl := unpackCtrl1 r.ctrl
  let ctrl2 ← unpackCtrl2Fields ctrl.moreHeader r.ctrl2
  let payload ← Machine.readOptional (ctrl.moreHeader == 1 && r.data.isSome)
    (openPayload key (r.data.getD []))
  .ok {
    id := r.id
    aris := r.aris
    ctrl := ctrl
    origin := r.origin
    destinationA := r.destinationA
    destinationsB := r.destinationsB
    destinationC := r.destinationC
    ctrl2 := match payload with
      | some plain => { ctrl2 with dataLength := logicalDataLength plain.length }
      | none => ctrl2
    crcHeader := r.crcHeader
    data := payload.getD []
    crcData := r.crcData.getD ⟨0, 0⟩
    frameEnd := r.frameEnd }

/-- The ciphertext `ct` of encoder step 6 (46_frame_encoder.md R270): the payload as it is under the
null key, encrypted under any other. -/
def sealPayload (key : Bytes16) (data : List Byte) : List Byte :=
  if isZeroKey key then data else aesEncrypt key data

/-- The word `w` of encoder step 2 (R266): the count of `destinations_b` stands for the chunk's
`destinations` field (R264). -/
def encodeCtrl1 (c : LogicalChunk) : Bytes4 :=
  packCtrl1 { c.ctrl with destinations := BitVec.ofNat 8 c.destinationsB.length }

/-- The word `w2` of encoder step 6 (R272), for a ciphertext of `units` units. -/
def encodeCtrl2 (c : LogicalChunk) (units : Nat) : Bytes4 :=
  packCtrl2 (BitVec.ofNat 8 units) c.ctrl2.feature c.ctrl2.negAnswer c.ctrl2.freqSwitch

/-- The check of encoder step 2 (R266): the count of destinations must fit its 8-bit field. -/
def checkDestinations (c : LogicalChunk) : Except ErrorKind Unit :=
  check (decide (c.destinationsB.length ≤ Config.maxDestinations)) .bufferOverflow

/-- Encoder step 5 (R269): `destination_c` is written exactly when `from` equals 1, and must then be
there. -/
def encodeDestinationC (c : LogicalChunk) : Except ErrorKind (Option Address) :=
  if c.ctrl.fromRelay == 1 then
    match c.destinationC with
    | none => .error .nullDestination
    | some a => .ok (some a)
  else .ok none

/-- Encoder step 6 (R270, R271, R272): the second control word and the ciphertext, exactly when
`more_header` equals 1. -/
def encodeSecondHeader (c : LogicalChunk) (key : Bytes16) :
    Except ErrorKind (Option (Bytes4 × List Byte)) :=
  if c.ctrl.moreHeader == 1 then do
    let ct := sealPayload key c.data
    let units := ct.length / Config.unit
    check (decide (units ≤ Config.maxDataUnits)) .bufferOverflow
    .ok (some (encodeCtrl2 c units, ct))
  else .ok none

/-- The data section of encoder step 8 (R274): the ciphertext when there is one and it is not
empty. -/
def encodeData (second : Option (Bytes4 × List Byte)) : Option (List Byte) :=
  match second with
  | some (_, ct) => if 0 < ct.length then some ct else none
  | none => none

/-- PACK on a LogicalChunk (R308): the ten encoder steps, each step's bytes stored in its field
(R307). -/
def packChunk (c : LogicalChunk) (key : Bytes16) : Except ErrorKind RawFrame := do
  checkDestinations c
  let destinationC ← encodeDestinationC c
  let second ← encodeSecondHeader c key
  let data := encodeData second
  let r : RawFrame := {
    id := c.id
    aris := arisEncrypt key c.aris
    ctrl := encodeCtrl1 c
    origin := c.origin
    destinationA := c.destinationA
    destinationsB := c.destinationsB
    destinationC := destinationC
    ctrl2 := second.map (fun v => v.1)
    crcHeader := ⟨0, 0⟩
    data := data
    crcData := data.map (fun ct => unbe16 (crc16 ct))
    frameEnd := c.frameEnd }
  check (c.frameEnd == c.id) .notSameId
  .ok { r with crcHeader := unbe16 (crc16 r.headerBytes) }

namespace Machine

/-- UNPACK (R305). -/
def execUnpack (s : State) : Host.Outcome State Fault Refusal :=
  .next (s.conclude (unpackFrame s.operands.rawIn s.operands.key)
    (fun r c => { r with chunkOut := c }))

/-- PACK (R308). -/
def execPack (s : State) : Host.Outcome State Fault Refusal :=
  .next (s.conclude (packChunk s.operands.chunkIn s.operands.key)
    (fun r f => { r with rawOut := f }))

end Machine

end Sys2Proof
end

