-- ==== Sys2Proof/Machine/FrameEncoder.lean ====
section
/-! DEFINITION. The Frame Encoder and the serializer (46_frame_encoder.md). -/

namespace Sys2Proof

/-- SERIALIZE on a RawFrame (R262): the sections that are present, in wire order, nothing checked. -/
def serializeFrame (r : RawFrame) : List Byte :=
  let b := r.headerBytes
  let b := Machine.memWrite b r.crcHeader.toList
  let b := match r.data with
    | some d => Machine.memWrite b d
    | none => b
  let b := match r.crcData with
    | some v => Machine.memWrite b v.toList
    | none => b
  Machine.memWrite b r.frameEnd.toList

/-- ENCODE on a LogicalChunk (R277): the ten steps R265 to R276, writing bytes directly. -/
def encodeChunk (c : LogicalChunk) (key : Bytes16) : Except ErrorKind (List Byte) := do
  -- step 1 (R265)
  let out := Machine.memWrite c.id.toList (arisEncrypt key c.aris).toList
  -- step 2 (R266)
  checkDestinations c
  let out := Machine.memWrite out (encodeCtrl1 c).toList
  -- step 3 (R267)
  let out := Machine.memWrite out c.origin.toList
  let out := Machine.memWrite out c.destinationA.toList
  -- step 4 (R268)
  let out := c.destinationsB.foldl (fun b a => Machine.memWrite b a.toList) out
  -- step 5 (R269)
  let destinationC ← encodeDestinationC c
  let out := match destinationC with
    | some a => Machine.memWrite out a.toList
    | none => out
  -- step 6 (R270, R271, R272)
  let second ← encodeSecondHeader c key
  let out := match second with
    | some (w2, _) => Machine.memWrite out w2.toList
    | none => out
  -- step 7 (R273)
  let out := Machine.memWrite out (unbe16 (crc16 out)).toList
  -- step 8 (R274)
  let out := match encodeData second with
    | some ct => Machine.memWrite (Machine.memWrite out ct) (unbe16 (crc16 ct)).toList
    | none => out
  -- step 9 (R275)
  check (c.frameEnd == c.id) .notSameId
  -- step 10 (R276)
  .ok (Machine.memWrite out c.frameEnd.toList)

/-- The composite send of 30_encoding.md R88: PACK then SERIALIZE. -/
def send (c : LogicalChunk) (key : Bytes16) : Except ErrorKind (List Byte) :=
  (packChunk c key).map serializeFrame

/-- The composite receive of 30_encoding.md R88: DECODE then UNPACK; it fails with the first error of
its parts. -/
def receive (input : List Byte) (key : Bytes16) (netid : Bytes4) :
    Except ErrorKind LogicalChunk := do
  let (r, _) ← decodeFrame input key netid
  unpackFrame r key

namespace Machine

/-- ENCODE (R277). -/
def execEncode (s : State) : Host.Outcome State Fault Refusal :=
  .next (s.conclude (encodeChunk s.operands.chunkIn s.operands.key)
    (fun r b => { r with out := b }))

/-- SERIALIZE (R262): always `Ok`. -/
def execSerialize (s : State) : Host.Outcome State Fault Refusal :=
  .next (s.complete { s.undriven with out := serializeFrame s.operands.rawIn })

end Machine

end Sys2Proof
end

