-- ==== Sys2Proof/Machine/WireWord.lean ====
section
/-! DEFINITION. The meaning of the two wire-word rows of the table (30_encoding.md R89). A control word
is no transaction: no `OP` code selects it (R85). What the engine does with one is a step of DECODE,
and that step is its meaning here (DESIGN CHOICE, notes/assumptions/4.md). -/

namespace Sys2Proof.Machine

/-- What the decoder takes from control word 1 (45_frame_decoder.md R224): `destinations`, `from` and
`more_header`, the cursor moving past the four bytes (R221). The other six fields are not looked at. -/
def DecoderWork.takeCtrl1 (w : DecoderWork) (c : ControlWord1Fields) : DecoderWork :=
  { w with
    cursor := w.cursor + 4
    destinations := c.destinations
    fromRelay := c.fromRelay
    moreHeader := c.moreHeader }

/-- What the decoder takes from control word 2 (R228, R230): `data_length`, the cursor moving past the
four bytes. The flags and the reserved bits are not looked at (R81). -/
def DecoderWork.takeCtrl2 (w : DecoderWork) (v : ControlWord2Wire) : DecoderWork :=
  { w with
    cursor := w.cursor + 4
    dataUnits := v.dataUnits }

/-- The length of the header region that the values taken fix (30_encoding.md R90, `H` of R73). -/
def DecoderWork.headerLength (w : DecoderWork) : Nat :=
  headerLen w.destinations.toNat (w.fromRelay == 1) (w.moreHeader == 1)

/-- The length of the frame that the values taken fix (R90, `FrameLen` of R72). -/
def DecoderWork.frameLength (w : DecoderWork) : Nat :=
  frameLen w.destinations.toNat (w.fromRelay == 1) (w.moreHeader == 1)
    (dataLen (w.moreHeader == 1) w.dataUnits.toNat)

/-- Control word 1 is taken by the decoder (R224). -/
def execCtrlWord1 (c : ControlWord1Fields) (s : State) : Host.Outcome State Fault Refusal :=
  .next { s with work := s.work.takeCtrl1 c }

/-- Control word 2 is taken by the decoder (R228, R230). -/
def execCtrlWord2 (v : ControlWord2Wire) (s : State) : Host.Outcome State Fault Refusal :=
  .next { s with work := s.work.takeCtrl2 v }

end Sys2Proof.Machine
end

