-- ==== Sys2Proof/Machine/Dispatch.lean ====
section
/-! DEFINITION. One arm per instruction. -/

namespace Sys2Proof.Machine

-- The meaning of an instruction on a state: the twelve operations of 30_encoding.md R85 in the
-- table's order, then its two wire-word rows (R89).
def exec (i : Instr) (s : State) : Host.Outcome State Fault Refusal :=
  match i with
  | .getField => Sys2Proof.Machine.execGetField s
  | .setField => Sys2Proof.Machine.execSetField s
  | .crc16 => Sys2Proof.Machine.execCrc16 s
  | .aesEncrypt => Sys2Proof.Machine.execAesEncrypt s
  | .aesDecrypt => Sys2Proof.Machine.execAesDecrypt s
  | .arisDecrypt => Sys2Proof.Machine.execArisDecrypt s
  | .arisEncrypt => Sys2Proof.Machine.execArisEncrypt s
  | .decode => Sys2Proof.Machine.execDecode s
  | .encode => Sys2Proof.Machine.execEncode s
  | .unpack => Sys2Proof.Machine.execUnpack s
  | .pack => Sys2Proof.Machine.execPack s
  | .serialize => Sys2Proof.Machine.execSerialize s
  | .ctrlWord1 c => Sys2Proof.Machine.execCtrlWord1 c s
  | .ctrlWord2 v => Sys2Proof.Machine.execCtrlWord2 v s

end Sys2Proof.Machine
end

