-- ==== Sys2Proof/WellFormed.lean ====
section
/-! DEFINITION. Which instructions are well formed: the fields of a control word fit their wire
widths (30_encoding.md R75, R79). -/

namespace Sys2Proof

/-- Every field of control word 1 is at most the largest value of 30_encoding.md R75
(`destinations` is 8 bits wide and always fits). -/
abbrev ControlWord1Fields.Fits (c : ControlWord1Fields) : Prop :=
  c.version ≤ 15 ∧ c.optionBits ≤ 7 ∧ c.fromRelay ≤ 1 ∧ c.sequenceNo ≤ 63 ∧ c.retry ≤ 1 ∧
    c.moreData ≤ 1 ∧ c.identifier ≤ 127 ∧ c.moreHeader ≤ 1

/-- Every flag of control word 2 is at most the largest value of 30_encoding.md R79
(`data_length` is 8 bits wide and the reserved field 21, and both always fit). -/
abbrev ControlWord2Wire.Fits (w : ControlWord2Wire) : Prop :=
  w.feature ≤ 1 ∧ w.negAnswer ≤ 1 ∧ w.freqSwitch ≤ 1

/-- An operation is always well formed; a control word is when its fields fit. -/
def Instr.wellFormed : Instr → Bool
  | .getField => true
  | .setField => true
  | .crc16 => true
  | .aesEncrypt => true
  | .aesDecrypt => true
  | .arisDecrypt => true
  | .arisEncrypt => true
  | .decode => true
  | .encode => true
  | .unpack => true
  | .pack => true
  | .serialize => true
  | .ctrlWord1 c => decide c.Fits
  | .ctrlWord2 w => decide w.Fits

end Sys2Proof
end

