-- ==== Sys2Proof/Decode.lean ====
section
/-! DEFINITION. The decoder: from the bytes that select or make up an instruction to the instruction,
total, rejecting by name; then the encoder, and the form in which the host asks the decoder. -/

namespace Sys2Proof

/-- Why bytes decode to no instruction. -/
inductive Reject where
  /-- An `OP` code that selects no operation (R86). -/
  | unassignedOp
  /-- Not the number of bytes the source holds: one for `OP`, four for a control word. -/
  | wrongLength
deriving DecidableEq, Repr

/-- The operation an `OP` code selects (R85); every other code is unassigned (R86). -/
def decodeOp (op : Byte) : Except Reject Instr :=
  match op.toNat with
  | 0x01 => .ok .getField
  | 0x02 => .ok .setField
  | 0x03 => .ok .crc16
  | 0x04 => .ok .aesEncrypt
  | 0x05 => .ok .aesDecrypt
  | 0x06 => .ok .arisDecrypt
  | 0x07 => .ok .arisEncrypt
  | 0x08 => .ok .decode
  | 0x09 => .ok .encode
  | 0x0A => .ok .unpack
  | 0x0B => .ok .pack
  | 0x0C => .ok .serialize
  | _ => .error .unassignedOp

/-- The decoder. An `OP` port is one byte, a control word four, big-endian (R55). -/
def decode (src : Source) (bytes : List Byte) : Except Reject Instr :=
  match src, bytes with
  | .opPort, [op] => decodeOp op
  | .opPort, _ => .error .wrongLength
  | .ctrlWord1, [b0, b1, b2, b3] => .ok (.ctrlWord1 (unpackCtrl1 ⟨b0, b1, b2, b3⟩))
  | .ctrlWord1, _ => .error .wrongLength
  | .ctrlWord2, [b0, b1, b2, b3] => .ok (.ctrlWord2 (unpackCtrl2 ⟨b0, b1, b2, b3⟩))
  | .ctrlWord2, _ => .error .wrongLength

/-- Where an instruction is presented. -/
def Instr.source : Instr → Source
  | .getField => .opPort
  | .setField => .opPort
  | .crc16 => .opPort
  | .aesEncrypt => .opPort
  | .aesDecrypt => .opPort
  | .arisDecrypt => .opPort
  | .arisEncrypt => .opPort
  | .decode => .opPort
  | .encode => .opPort
  | .unpack => .opPort
  | .pack => .opPort
  | .serialize => .opPort
  | .ctrlWord1 _ => .ctrlWord1
  | .ctrlWord2 _ => .ctrlWord2

/-- A control word 2 with its reserved bits in place (R78). -/
def packCtrl2Wire (w : ControlWord2Wire) : Bytes4 :=
  unbe32 (be32 (packCtrl2 w.dataUnits w.feature w.negAnswer w.freqSwitch) |||
    w.reserved.setWidth 32)

/-- The encoder: the bytes of an instruction (R85; R74, R78 with R55). -/
def encode : Instr → List Byte
  | .getField => [0x01]
  | .setField => [0x02]
  | .crc16 => [0x03]
  | .aesEncrypt => [0x04]
  | .aesDecrypt => [0x05]
  | .arisDecrypt => [0x06]
  | .arisEncrypt => [0x07]
  | .decode => [0x08]
  | .encode => [0x09]
  | .unpack => [0x0A]
  | .pack => [0x0B]
  | .serialize => [0x0C]
  | .ctrlWord1 c => (packCtrl1 c).toList
  | .ctrlWord2 w => (packCtrl2Wire w).toList

/-- Where an instruction of `nbits` bits is presented when nothing else says so: a byte is an `OP`
code, a longer word a control word, and the first control word of a frame is control word 1
(DESIGN CHOICE, notes/assumptions/6.md). -/
def sourceOfWidth (nbits : Nat) : Source :=
  if nbits ≤ 8 then .opPort else .ctrlWord1

/-- The bytes of an instruction of `nbits` bits whose table word is `w`: the `OP` byte, or the 32-bit
word stored big-endian (R55). -/
def tableBytes (nbits w : Nat) : List Byte :=
  if nbits ≤ 8 then [BitVec.ofNat 8 w] else (unbe32 (BitVec.ofNat 32 w)).toList

/-- The instruction the decoder reads from a word of spec/opcode_table.json. -/
def decodeTableWord (nbits w : Nat) : Option Instr :=
  match decode (sourceOfWidth nbits) (tableBytes nbits w) with
  | .ok i => some i
  | .error _ => none

end Sys2Proof
end

