-- ==== Sys2Proof/Machine/Fetch.lean ====
section
/-! DEFINITION. Where the next instruction comes from: the `OP` port, or a control word of the input
span at the decoder's cursor. -/

namespace Sys2Proof.Machine

/-- The bytes of the next instruction. A control word is read with `MemRead` at the cursor
(45_frame_decoder.md R221). -/
def fetchBytes (s : State) : Except ErrorKind (List Byte) :=
  match s.source with
  | .opPort => .ok [s.operands.op]
  | .ctrlWord1 => memRead s.operands.input s.work.cursor 4
  | .ctrlWord2 => memRead s.operands.input s.work.cursor 4

/-- The status of an instruction that does not decode: `InvalidArgument`, "malformed call parameters"
(30_encoding.md R86). -/
def rejectKind : Reject → ErrorKind
  | .unassignedOp => .invalidArgument
  | .wrongLength => .invalidArgument

/-- The next instruction, or the error the transaction ends with before any operand is looked at
(60_exceptions.md R346). -/
def fetch (s : State) : Except ErrorKind Instr := do
  let bytes ← fetchBytes s
  match decode s.source bytes with
  | .ok i => .ok i
  | .error r => .error (rejectKind r)

/-- A span with `bytes` written at offset `p`, zero bytes filling what lies before. -/
def placeAt (span : List Byte) (p : Nat) (bytes : List Byte) : List Byte :=
  span.take p ++ List.replicate (p - span.length) 0 ++ bytes ++ span.drop (p + bytes.length)

end Sys2Proof.Machine
end

