-- ==== Sys2Proof/Machine/Step.lean ====
section
/-! DEFINITION. One step: fetch, decode, execute. -/

namespace Sys2Proof.Machine

/-- One step of the engine: the instruction presented is executed; one that does not decode ends with
its error status, which is a next state (30_encoding.md R86, 60_exceptions.md R345). -/
def step (s : State) : Host.Outcome State Fault Refusal :=
  match fetch s with
  | .ok i => exec i s
  | .error kind => .next (s.raise kind)

/-- The state with an instruction of `nbits` bits, table word `w`, placed where `step` fetches: on the
`OP` port, or as a control word of the input span at the cursor (notes/assumptions/5.md, 6.md). -/
def State.withFetchWord (s : State) (nbits w : Nat) : State :=
  if nbits ≤ 8 then
    { s with
      operands := { s.operands with op := BitVec.ofNat 8 w }
      source := .opPort }
  else
    { s with
      operands := { s.operands with
        input := placeAt s.operands.input s.work.cursor (tableBytes nbits w) }
      source := sourceOfWidth nbits }

end Sys2Proof.Machine
end

