-- ==== Sys2Proof/Machine/FrameForms.lean ====
section
/-! DEFINITION. When a RawFrame and a LogicalChunk are well formed (10_state.md R31, R35). No operation
checks these predicates as a whole; they are the hypotheses of the round-trip laws. -/

namespace Sys2Proof

/-- The `data_length` units of a RawFrame: those of its `ctrl2`, none without one (R31). -/
def RawFrame.wireUnits (r : RawFrame) : Nat := Sys2Proof.wireUnits r.ctrl2

/-- `WF_RAW(r, netid)` (R31), for the key the marker is decrypted with. -/
abbrev RawFrame.WellFormed (r : RawFrame) (netid : Bytes4) (key : Bytes16) : Prop :=
  r.destinationsB.length = (destinationsField.get r.ctrl).toNat ∧
  r.destinationC.isSome = (fromField.get r.ctrl == 1) ∧
  r.ctrl2.isSome = (moreHeaderField.get r.ctrl == 1) ∧
  r.data.map List.length =
    (if 0 < r.wireUnits then some (Config.unit * r.wireUnits) else none) ∧
  r.id = netid ∧
  r.frameEnd = netid ∧
  arisCandidate key r.aris = Config.arisLiteral ∧
  be16 r.crcHeader = crc16 r.headerBytes ∧
  r.crcData.map be16 = r.data.map crc16

/-- `WF_CHUNK(c, k)` (R35). -/
abbrev LogicalChunk.WellFormed (c : LogicalChunk) (key : Bytes16) : Prop :=
  c.ctrl.Fits ∧
  (c.ctrl2.feature ≤ 1 ∧ c.ctrl2.negAnswer ≤ 1 ∧ c.ctrl2.freqSwitch ≤ 1) ∧
  c.destinationsB.length ≤ 255 ∧
  c.ctrl.destinations.toNat = c.destinationsB.length ∧
  (c.destinationC.isSome = true ↔ c.ctrl.fromRelay = 1) ∧
  c.frameEnd = c.id ∧
  c.ctrl2.dataLength.toNat = c.data.length ∧
  (c.ctrl.moreHeader = 0 → c.data = [] ∧ c.ctrl2 = ⟨0, 0, 0, 0⟩) ∧
  (c.ctrl.moreHeader = 1 → key ≠ Config.zeroKey → c.data.length ≤ 2031) ∧
  (c.ctrl.moreHeader = 1 → key = Config.zeroKey →
    c.data.length % 8 = 0 ∧ c.data.length ≤ 2040)

end Sys2Proof
end

