-- ==== Sys2Proof/Machine/Ports.lean ====
section
/-! DEFINITION. Which ports each operation reads and drives (10_state.md R24, R25; 30_encoding.md R85)
and which statuses it can end with (60_exceptions.md R343). -/

namespace Sys2Proof.Machine

/-- Whether an instruction is one of the twelve operations, a transaction (R85). -/
def isOperation (i : Instr) : Bool := i.source == .opPort

/-- The operand ports an operation reads (R24, R85), the others replaced by one fixed value, so that
two states agree on the listed ports exactly when these are equal. -/
def listedOperands (i : Instr) (o : OperandPorts) : OperandPorts :=
  match i with
  | .getField =>
    { OperandPorts.reset with
      word := o.word, wordPresent := o.wordPresent, mask := o.mask, shift := o.shift }
  | .setField => { OperandPorts.reset with word := o.word, data8 := o.data8, shift := o.shift }
  | .crc16 => { OperandPorts.reset with input := o.input }
  | .aesEncrypt => { OperandPorts.reset with key := o.key, input := o.input }
  | .aesDecrypt => { OperandPorts.reset with key := o.key, input := o.input }
  | .arisDecrypt => { OperandPorts.reset with key := o.key, marker := o.marker }
  | .arisEncrypt => { OperandPorts.reset with key := o.key, marker := o.marker }
  | .decode => { OperandPorts.reset with input := o.input, key := o.key, netid := o.netid }
  | .encode => { OperandPorts.reset with chunkIn := o.chunkIn, key := o.key }
  | .unpack => { OperandPorts.reset with rawIn := o.rawIn, key := o.key }
  | .pack => { OperandPorts.reset with chunkIn := o.chunkIn, key := o.key }
  | .serialize => { OperandPorts.reset with rawIn := o.rawIn }
  | .ctrlWord1 _ => OperandPorts.reset
  | .ctrlWord2 _ => OperandPorts.reset

/-- The result ports that have a defined value after an operation (R25): `STATUS` alone on an error
(60_exceptions.md R345), and on `Ok` the ports R85 lists as well; the others replaced by one fixed
value. -/
def listedResults (i : Instr) (r : ResultPorts) : ResultPorts :=
  match r.status with
  | .error kind => { ResultPorts.reset with status := .error kind }
  | .ok =>
    match i with
    | .getField => { ResultPorts.reset with field := r.field }
    | .setField => { ResultPorts.reset with wordOut := r.wordOut }
    | .crc16 => { ResultPorts.reset with crc := r.crc }
    | .aesEncrypt => { ResultPorts.reset with out := r.out }
    | .aesDecrypt => { ResultPorts.reset with out := r.out }
    | .arisDecrypt => ResultPorts.reset
    | .arisEncrypt => { ResultPorts.reset with markerOut := r.markerOut }
    | .decode => { ResultPorts.reset with rawOut := r.rawOut, consumed := r.consumed }
    | .encode => { ResultPorts.reset with out := r.out }
    | .unpack => { ResultPorts.reset with chunkOut := r.chunkOut }
    | .pack => { ResultPorts.reset with rawOut := r.rawOut }
    | .serialize => { ResultPorts.reset with out := r.out }
    | .ctrlWord1 _ => ResultPorts.reset
    | .ctrlWord2 _ => ResultPorts.reset

/-- The statuses an operation can end with (R343); a control word is no transaction and has none. -/
def possibleStatuses (i : Instr) : List Status :=
  match i with
  | .getField => [.ok]
  | .setField => [.ok]
  | .crc16 => [.ok]
  | .aesEncrypt => [.ok]
  | .aesDecrypt => [.ok, .error .invalidArgument, .error .invalidPadding]
  | .arisDecrypt => [.ok, .error .notSameAris]
  | .arisEncrypt => [.ok]
  | .decode =>
    [.ok, .error .bufferOverflow, .error .notSameId, .error .notSameAris,
      .error .notSameCrcHeader, .error .notSameCrcData, .error .notSameEnd]
  | .encode => [.ok, .error .bufferOverflow, .error .nullDestination, .error .notSameId]
  | .unpack => [.ok, .error .generic, .error .invalidArgument, .error .invalidPadding]
  | .pack => [.ok, .error .bufferOverflow, .error .nullDestination, .error .notSameId]
  | .serialize => [.ok]
  | .ctrlWord1 _ => []
  | .ctrlWord2 _ => []

end Sys2Proof.Machine
end

