-- ==== Sys2Proof/Safety.lean ====
section
/-! DEFINITION. The terms in which claims about runs are made: what a transaction leaves unchanged, and
the invariant of the engine. -/

namespace Sys2Proof.Machine

/-- What a transaction leaves as it was or as the rules fix it, whatever its status: the operand ports
are not modified (20_memory.md R54), what the next step takes is still selected as before, and no value
of the decoder is retained (10_state.md R20, R22; 70_reset_and_hazards.md R380). The result ports the
status does not list have no defined value (10_state.md R25), so a frame says nothing of them. -/
def TransactionFrame (s t : State) : Prop :=
  t.operands = s.operands ∧ t.source = s.source ∧ t.work = DecoderWork.start

/-- The invariant of the engine: while transactions are presented nothing of an earlier one is
retained (R20, R380); the two one-bit fields the decoder has taken are 0 or 1 (45_frame_decoder.md
R224); and `STATUS` is never `NullOrigin`, the one kind no operation raises (60_exceptions.md R340). -/
def EngineInv (s : State) : Prop :=
  (s.source = .opPort → s.work = DecoderWork.start) ∧
  (s.work.fromRelay = 0 ∨ s.work.fromRelay = 1) ∧
  (s.work.moreHeader = 0 ∨ s.work.moreHeader = 1) ∧
  s.results.status ≠ .error .nullOrigin

/-- The span with bit `k` of byte `p` flipped. -/
def flipBit (span : List Byte) (p k : Nat) : List Byte :=
  span.set p (span.getD p 0 ^^^ (1#8 <<< k))

/-- The state with the input span replaced, as a caller presents another transaction. -/
def State.withInput (s : State) (input : List Byte) : State :=
  { s with operands := { s.operands with input := input } }

end Sys2Proof.Machine
end

