-- ==== Sys2Proof/Certificates/Slice0/Obligations.lean ====
section
/-! DEFINITION. The statements for the provers. Each docstring names the rule of spec/ it formalises. -/

open Sys2Proof Sys2Proof.Machine

-- ==== the machine ====

/-- Reset (10_state.md R39, 70_reset_and_hazards.md R380): the decoder's cursor is 0 and nothing of an
earlier frame is held, and what is presented is a transaction (notes/assumptions/5.md). -/
def Obligations.ResetRetainsNothing : Prop :=
  State.reset.work = DecoderWork.start ∧ State.reset.work.cursor = 0 ∧
    State.reset.source = .opPort

/-- A step runs the decoded instruction: the operation the `OP` port selects (30_encoding.md R85), or
the control word at the decoder's cursor (45_frame_decoder.md R221), as `source` says, which is the
model's own field (notes/assumptions/5.md). -/
def Obligations.StepRunsDecodedInstruction : Prop :=
  (∀ (s : State) (bytes : List Byte) (i : Instr), fetchBytes s = .ok bytes →
    decode s.source bytes = .ok i → step s = exec i s) ∧
  (∀ (s : State) (i : Instr), s.source = .opPort → decode .opPort [s.operands.op] = .ok i →
    step s = exec i s) ∧
  (∀ (s : State) (a b : List Byte) (w : Bytes4), s.operands.input = a ++ w.toList ++ b →
    a.length = s.work.cursor →
    (s.source = .ctrlWord1 → step s = exec (.ctrlWord1 (unpackCtrl1 w)) s) ∧
    (s.source = .ctrlWord2 → step s = exec (.ctrlWord2 (unpackCtrl2 w)) s))

/-- An unassigned operation code (30_encoding.md R86): the transaction ends with `InvalidArgument`,
no operand port being modified. -/
def Obligations.UnassignedOpEndsInvalidArgument : Prop :=
  ∀ s : State, s.source = .opPort → (s.operands.op = 0x00 ∨ 0x0D ≤ s.operands.op) →
    ∃ t, step s = .next t ∧ t.results.status = .error .invalidArgument ∧ t.operands = s.operands

/-- A control word that is not all there (20_memory.md R52): the decoder's read fails with
`BufferOverflow`. That a control word presented alone is read so is the model's choice
(notes/assumptions/4.md, 12.md). -/
def Obligations.ShortControlWordOverflows : Prop :=
  ∀ s : State, (s.source = .ctrlWord1 ∨ s.source = .ctrlWord2) →
    s.operands.input.length < s.work.cursor + 4 →
    ∃ t, step s = .next t ∧ t.results.status = .error .bufferOverflow ∧ TransactionFrame s t

/-- Words written out from the spec's encodings decode to the instructions they stand for: the twelve
operation codes (30_encoding.md R85), frame B's two control words (R74, R78, 47_logical_pack.md R315)
and frame C's first (R315). -/
def Obligations.WordsOfSpecDecode : Prop :=
  decode .opPort [0x01] = .ok .getField ∧ decode .opPort [0x02] = .ok .setField ∧
  decode .opPort [0x03] = .ok .crc16 ∧ decode .opPort [0x04] = .ok .aesEncrypt ∧
  decode .opPort [0x05] = .ok .aesDecrypt ∧ decode .opPort [0x06] = .ok .arisDecrypt ∧
  decode .opPort [0x07] = .ok .arisEncrypt ∧ decode .opPort [0x08] = .ok .decode ∧
  decode .opPort [0x09] = .ok .encode ∧ decode .opPort [0x0A] = .ok .unpack ∧
  decode .opPort [0x0B] = .ok .pack ∧ decode .opPort [0x0C] = .ok .serialize ∧
  decode .ctrlWord1 [0x10, 0x2B, 0x86, 0xC9] = .ok (.ctrlWord1 ⟨1, 2, 5, 1, 33, 1, 0, 100, 1⟩) ∧
  decode .ctrlWord1 [0x20, 0x30, 0x04, 0x0F] = .ok (.ctrlWord1 ⟨2, 3, 0, 0, 1, 0, 0, 7, 1⟩) ∧
  decode .ctrlWord2 [0x02, 0xA0, 0x00, 0x00] = .ok (.ctrlWord2 ⟨2, 1, 0, 1, 0⟩)

/-- Decode and encode agree: every well-formed instruction, with every operand value its encoding
admits, is read back from its own bytes (30_encoding.md R85, R74, R78; 40_bitfield.md R112 (d)). -/
def Obligations.DecodeOfEncodeIsIdentity : Prop :=
  ∀ i : Instr, i.wellFormed = true → decode i.source (encode i) = .ok i

/-- No bit of a control word is dropped: every four bytes decode to a well-formed control word whose
encoding is those bytes, control word 1 having no reserved bit and control word 2 keeping its own
(30_encoding.md R75, R78). -/
def Obligations.ControlWordsLoseNoBit : Prop :=
  ∀ v : Bytes4,
    (∃ c, decode .ctrlWord1 v.toList = .ok (.ctrlWord1 c) ∧ c.Fits ∧
      encode (.ctrlWord1 c) = v.toList) ∧
    (∃ c, decode .ctrlWord2 v.toList = .ok (.ctrlWord2 c) ∧ c.Fits ∧
      encode (.ctrlWord2 c) = v.toList)

/-- The engine's invariant holds at reset, with the reset values of notes/assumptions/2.md, 4.md and
5.md. -/
def Obligations.EngineInvariantAtReset : Prop := EngineInv State.reset

/-- Every step keeps the engine's invariant: nothing is retained while transactions are presented
(10_state.md R20; 70_reset_and_hazards.md R380), the one-bit fields the decoder takes are 0 or 1
(45_frame_decoder.md R224), and no operation raises `NullOrigin` (60_exceptions.md R340). The fields of
the decoder and `source` are the model's choice (notes/assumptions/4.md, 5.md, 7.md). -/
def Obligations.StepKeepsEngineInvariant : Prop :=
  ∀ s t : State, EngineInv s → step s = .next t → EngineInv t

/-- A step has no next state exactly when it is a GET_FIELD of a present word or a SET_FIELD with
`SHIFT` of 32 or more (40_bitfield.md R105, R111; 60_exceptions.md R343): no other input is refused,
and none faults. -/
def Obligations.StepStopsOnlyOnShiftOutsideDomain : Prop :=
  ∀ s : State, (¬ ∃ t, step s = .next t) ↔
    s.source = .opPort ∧ 32 ≤ s.operands.shift.toNat ∧
      ((s.operands.op = 0x01 ∧ s.operands.wordPresent = true) ∨ s.operands.op = 0x02)

/-- The statuses an operation can end with are those of 60_exceptions.md R343. -/
def Obligations.StatusesAreThoseListed : Prop :=
  ∀ (i : Instr) (s t : State), isOperation i = true → exec i s = .next t →
    t.results.status ∈ possibleStatuses i

/-- Every operation is a function of its listed operands (10_state.md R20; 20_memory.md R59): two states
that agree on the ports the operation reads end with the same status and the same listed results. -/
def Obligations.ResultsDependOnListedOperandsOnly : Prop :=
  ∀ (i : Instr) (s s' t : State), isOperation i = true →
    listedOperands i s.operands = listedOperands i s'.operands → exec i s = .next t →
    ∃ t', exec i s' = .next t' ∧
      listedResults i t.results = listedResults i t'.results

/-- No transaction, successful or failed, has an effect on a later one (60_exceptions.md R345;
70_reset_and_hazards.md R386; 20_memory.md R64 (c)): after any first transaction the second ends
as it would have ended without it. -/
def Obligations.EarlierTransactionHasNoEffect : Prop :=
  ∀ (i j : Instr) (s t v : State), isOperation i = true → isOperation j = true →
    exec i s = .next t → exec j s = .next v →
    ∃ u, exec j t = .next u ∧ listedResults j u.results = listedResults j v.results

/-- The frame of every operation, whatever its status: the operand ports are as they were (20_memory.md
R54); and, in the model's own fields, what the next step takes is selected as before and no value of the
decoder is retained (notes/assumptions/5.md, 7.md). The result ports the status does not list have no
defined value (10_state.md R25), so the frame says nothing of them. -/
def Obligations.OperationsKeepOperands : Prop :=
  ∀ (i : Instr) (s t : State), isOperation i = true → exec i s = .next t → TransactionFrame s t

/-- The status codes of 60_exceptions.md R341, all distinct. -/
def Obligations.StatusCodesAreInOrder : Prop :=
  Status.code .ok = 0 ∧ ErrorKind.code .generic = 1 ∧ ErrorKind.code .notSameId = 2 ∧
  ErrorKind.code .notSameAris = 3 ∧ ErrorKind.code .notSameCrcHeader = 4 ∧
  ErrorKind.code .notSameCrcData = 5 ∧ ErrorKind.code .notSameEnd = 6 ∧
  ErrorKind.code .invalidArgument = 7 ∧ ErrorKind.code .invalidPadding = 8 ∧
  ErrorKind.code .bufferOverflow = 9 ∧ ErrorKind.code .nullOrigin = 10 ∧
  ErrorKind.code .nullDestination = 11 ∧
  (∀ a : ErrorKind, Status.code (.error a) = a.code) ∧
  (∀ a : Status, a.code.toNat ≤ 11) ∧
  ∀ a b : Status, a.code = b.code → a = b

-- ==== spans and byte order ====

/-- `MemRead(p, n)` (20_memory.md R52): the bytes at `p`, or `BufferOverflow` when one is missing. -/
def Obligations.MemReadChecksItsEnd : Prop :=
  ∀ (a v b : List Byte) (p n : Nat),
    memRead (a ++ v ++ b) a.length v.length = .ok v ∧
    (a.length < p + n → memRead a p n = .error .bufferOverflow)

/-- Big-endian packing (00_scope.md R13): the byte at the lower offset is the more significant. -/
def Obligations.BigEndianPacking : Prop :=
  (∀ v : Bytes4, (be32 v).toNat =
    v.b0.toNat * 2 ^ 24 + v.b1.toNat * 2 ^ 16 + v.b2.toNat * 2 ^ 8 + v.b3.toNat) ∧
  (∀ v : Bytes2, (be16 v).toNat = v.b0.toNat * 2 ^ 8 + v.b1.toNat) ∧
  (∀ v : Bytes4, unbe32 (be32 v) = v) ∧ (∀ x : BitVec 32, be32 (unbe32 x) = x) ∧
  (∀ v : Bytes2, unbe16 (be16 v) = v) ∧ (∀ x : BitVec 16, be16 (unbe16 x) = x)

-- ==== BitField Codec ====

/-- GET_FIELD of a present word with `SHIFT <= 31` (40_bitfield.md R101): the mask first, the shift
second, the low 8 bits. -/
def Obligations.GetFieldMasksThenShifts : Prop :=
  ∀ s : State, s.operands.wordPresent = true → s.operands.shift.toNat ≤ 31 →
    ∃ t, exec .getField s = .next t ∧ t.results.status = .ok ∧
      t.results.field =
        ((be32 s.operands.word &&& s.operands.mask) >>> s.operands.shift.toNat).setWidth 8 ∧
      t.operands = s.operands

/-- GET_FIELD of an absent word (40_bitfield.md R104): the sentinel `0xFF` with status `Ok`, whatever
`WORD`, `MASK` and `SHIFT` hold. -/
def Obligations.GetFieldOfAbsentWordIsSentinel : Prop :=
  ∀ s : State, s.operands.wordPresent = false →
    ∃ t, exec .getField s = .next t ∧ t.results.status = .ok ∧ t.results.field = 0xFF ∧
      t.operands = s.operands

/-- SET_FIELD with `SHIFT <= 31` (40_bitfield.md R108): the data widened, shifted, cut to 32 bits and
ORed into the word. -/
def Obligations.SetFieldOrsShiftedData : Prop :=
  ∀ s : State, s.operands.shift.toNat ≤ 31 →
    ∃ t, exec .setField s = .next t ∧ t.results.status = .ok ∧
      be32 t.results.wordOut =
        be32 s.operands.word |||
          (s.operands.data8.setWidth 40 <<< s.operands.shift.toNat).setWidth 32 ∧
      t.operands = s.operands

/-- `SHIFT` of 32 or more is outside the domain of both operations: the model refuses
(40_bitfield.md R105 (a), R111 (a)). -/
def Obligations.ShiftOutsideDomainIsRefused : Prop :=
  ∀ s : State, 32 ≤ s.operands.shift.toNat →
    (s.operands.wordPresent = true →
      exec .getField s = .refused (.shiftOutOfDomain "GET_FIELD")) ∧
    exec .setField s = .refused (.shiftOutOfDomain "SET_FIELD")

/-- A field written into a word whose bits there are 0 reads back, and no other bit of the word
changes (40_bitfield.md R112 (b), (c)), for each of the thirteen descriptors of 30_encoding.md R75 and
R79: SET_FIELD, then GET_FIELD on the result. -/
def Obligations.SetFieldThenGetFieldReadsBack : Prop :=
  ∀ f ∈ ctrl1Descriptors ++ ctrl2Descriptors, ∀ s : State,
    s.operands.shift.toNat = f.shift → s.operands.data8.toNat < 2 ^ f.width →
    be32 s.operands.word &&& f.mask = 0 →
    ∃ t, exec .setField s = .next t ∧
      be32 t.results.wordOut &&& ~~~ f.mask = be32 s.operands.word &&& ~~~ f.mask ∧
      ∀ u : State, u.operands.wordPresent = true → u.operands.word = t.results.wordOut →
        u.operands.mask = f.mask → u.operands.shift.toNat = f.shift →
        ∃ v, exec .getField u = .next v ∧ v.results.field = s.operands.data8

-- ==== CRC-16 Engine ====

/-- CRC16 completes with the bit-serial CRC of the span (41_crc16.md R123), `0xFFFF` for the empty span
(R124 (a)). -/
def Obligations.Crc16EqualsBitSerialForm : Prop :=
  ∀ s : State, ∃ t, exec .crc16 s = .next t ∧ t.results.status = .ok ∧
    t.results.crc = crc16Serial s.operands.input ∧
    (s.operands.input = [] → t.results.crc = 0xFFFF) ∧ t.operands = s.operands

/-- The printed table is the one the generation rule gives (41_crc16.md R122). -/
def Obligations.CrcTableFollowsItsRule : Prop := ∀ i : Byte, crcTable i = crcTableRule i

/-- The residue law (41_crc16.md R125): a span followed by its own CRC has CRC 0. -/
def Obligations.Crc16ResidueIsZero : Prop :=
  ∀ s t u : State, exec .crc16 s = .next t →
    u.operands.input = s.operands.input ++ (unbe16 t.results.crc).toList →
    ∃ v, exec .crc16 u = .next v ∧ v.results.crc = 0x0000

/-- Two spans of equal length that differ in exactly one bit have different CRCs (41_crc16.md R126). -/
def Obligations.Crc16DetectsEverySingleBit : Prop :=
  ∀ (s t u : State) (p k : Nat), p < s.operands.input.length → k < 8 →
    exec .crc16 s = .next t → exec .crc16 (s.withInput (flipBit s.operands.input p k)) = .next u →
    u.results.crc ≠ t.results.crc

-- ==== AES-128-ECB + PKCS#7 Engine ====

/-- The S-box is the affine map of the field inverse, and the inverse table inverts it
(43_aes128_primitive.md R173, R174). -/
def Obligations.SboxFollowsItsFormula : Prop :=
  ∀ a : Byte, ∃ b : Byte, (if a = 0 then b = 0 else gfMul a b = 1) ∧ sbox a = sboxAffine b ∧
    invSbox (sbox a) = a

/-- The two block functions are mutually inverse under every key (42_aes_pkcs7.md R142). -/
def Obligations.AesBlockFunctionsAreInverse : Prop :=
  ∀ k b : Bytes16, aesDecBlock k (aesEncBlock k b) = b ∧ aesEncBlock k (aesDecBlock k b) = b

/-- AES_ENCRYPT (42_aes_pkcs7.md R144, R146): each block of the result is the encryption of the same
block of the input padded with `16 - (L mod 16)` bytes of that value; the result is longer than the
input, `16 * (L div 16 + 1)` bytes. The all-zero key gets no special treatment (R145 (d)). -/
def Obligations.AesEncryptPadsThenEncryptsBlocks : Prop :=
  ∀ s : State, ∃ t, exec .aesEncrypt s = .next t ∧ t.results.status = .ok ∧
    t.results.out.length = 16 * (s.operands.input.length / 16 + 1) ∧
    (∀ j, j < s.operands.input.length / 16 + 1 →
      Bytes16.ofList ((t.results.out.drop (16 * j)).take 16) =
        aesEncBlock s.operands.key (Bytes16.ofList
          (((s.operands.input ++
              List.replicate (16 - s.operands.input.length % 16)
                (BitVec.ofNat 8 (16 - s.operands.input.length % 16))).drop (16 * j)).take 16))) ∧
    t.operands = s.operands

/-- AES_DECRYPT of an empty span or one whose length is no multiple of 16 (42_aes_pkcs7.md R152). -/
def Obligations.AesDecryptRejectsBadLength : Prop :=
  ∀ s : State, (s.operands.input.length = 0 ∨ s.operands.input.length % 16 ≠ 0) →
    ∃ t, exec .aesDecrypt s = .next t ∧ t.results.status = .error .invalidArgument ∧
      t.operands = s.operands

/-- AES_DECRYPT (42_aes_pkcs7.md R152): `InvalidArgument` for an empty span or one of no whole number of
blocks; else, with `plain` the blocks decrypted one by one and `pad` its last byte, the result is `plain`
without its last `pad` bytes when `pad` is 1 to 16 and those bytes all equal `pad`, and `InvalidPadding`
otherwise. -/
def Obligations.AesDecryptValidatesPadding : Prop :=
  ∀ s : State, ∃ t, exec .aesDecrypt s = .next t ∧ t.operands = s.operands ∧
    ((s.operands.input.length = 0 ∨ s.operands.input.length % 16 ≠ 0) →
      t.results.status = .error .invalidArgument) ∧
    ∀ (plain : List Byte) (pad : Nat),
      s.operands.input.length ≠ 0 → s.operands.input.length % 16 = 0 →
      plain.length = s.operands.input.length →
      (∀ j, j < s.operands.input.length / 16 →
        Bytes16.ofList ((plain.drop (16 * j)).take 16) =
          aesDecBlock s.operands.key
            (Bytes16.ofList ((s.operands.input.drop (16 * j)).take 16))) →
      plain.getLast? = some (BitVec.ofNat 8 pad) → pad < 256 →
      (if 1 ≤ pad ∧ pad ≤ 16 ∧
          plain.drop (plain.length - pad) = List.replicate pad (BitVec.ofNat 8 pad) then
        t.results.status = .ok ∧ t.results.out = plain.take (plain.length - pad)
      else t.results.status = .error .invalidPadding)

/-- The round trip (42_aes_pkcs7.md R155): AES_DECRYPT of an AES_ENCRYPT result under the same key is
the plaintext, for every length, 0 included; and AES_ENCRYPT of an AES_DECRYPT result is the
ciphertext. -/
def Obligations.AesDecryptUndoesAesEncrypt : Prop :=
  (∀ s t u : State, exec .aesEncrypt s = .next t → u.operands.key = s.operands.key →
    u.operands.input = t.results.out →
    ∃ v, exec .aesDecrypt u = .next v ∧ v.results.status = .ok ∧
      v.results.out = s.operands.input) ∧
  (∀ s t u : State, exec .aesDecrypt s = .next t → t.results.status = .ok →
    u.operands.key = s.operands.key → u.operands.input = t.results.out →
    ∃ v, exec .aesEncrypt u = .next v ∧ v.results.status = .ok ∧
      v.results.out = s.operands.input)

-- ==== ARIS Marker Cipher ====

/-- ARIS_ENCRYPT (44_aris_marker.md R203): the last key byte is added to each marker byte, mod 256,
when it is not 0; whatever the marker is. -/
def Obligations.ArisEncryptAddsLastKeyByte : Prop :=
  ∀ s : State, ∃ t, exec .arisEncrypt s = .next t ∧ t.results.status = .ok ∧
    t.results.markerOut =
      (if s.operands.key.last ≠ 0 then
        ⟨s.operands.marker.b0 + s.operands.key.last, s.operands.marker.b1 + s.operands.key.last,
          s.operands.marker.b2 + s.operands.key.last, s.operands.marker.b3 + s.operands.key.last⟩
      else s.operands.marker) ∧
    t.operands = s.operands

/-- ARIS_DECRYPT (44_aris_marker.md R202): the last key byte is taken from each marker byte, mod 256, when
it is not 0, and the operation succeeds exactly when that gives the literal; so for a given key byte
exactly one marker is accepted, the literal with that byte added (R205 (b)). -/
def Obligations.ArisDecryptAcceptsExactlyOneMarker : Prop :=
  ∀ s : State, ∃ t, exec .arisDecrypt s = .next t ∧ t.operands = s.operands ∧
    t.results.status =
      (if (if s.operands.key.last ≠ 0 then
            (⟨s.operands.marker.b0 - s.operands.key.last, s.operands.marker.b1 - s.operands.key.last,
              s.operands.marker.b2 - s.operands.key.last,
              s.operands.marker.b3 - s.operands.key.last⟩ : Bytes4)
          else s.operands.marker) = ⟨0x41, 0x52, 0x49, 0x53⟩
      then .ok else .error .notSameAris) ∧
    (t.results.status = .ok ↔ s.operands.marker =
      ⟨0x41 + s.operands.key.last, 0x52 + s.operands.key.last, 0x49 + s.operands.key.last,
        0x53 + s.operands.key.last⟩)

/-- The marker laws (44_aris_marker.md R206): taking the key byte from each byte of what ARIS_ENCRYPT gives
returns the marker; what ARIS_ENCRYPT gives is accepted by
ARIS_DECRYPT with the same key exactly when the literal was encrypted, and, for the literal, exactly
when the two keys agree in their last byte. -/
def Obligations.ArisRoundTripNeedsLiteralAndKeyByte : Prop :=
  ∀ s t u : State, exec .arisEncrypt s = .next t → u.operands.marker = t.results.markerOut →
    (t.results.markerOut.map (fun b => b - s.operands.key.last) = s.operands.marker) ∧
    ∃ v, exec .arisDecrypt u = .next v ∧
      (u.operands.key = s.operands.key →
        (v.results.status = .ok ↔ s.operands.marker = ⟨0x41, 0x52, 0x49, 0x53⟩)) ∧
      (s.operands.marker = ⟨0x41, 0x52, 0x49, 0x53⟩ →
        (v.results.status = .ok ↔ s.operands.key.last = u.operands.key.last))

-- ==== Frame Decoder ====

/-- DECODE accepts every well-formed frame (10_state.md R31), bytes after it ignored (20_memory.md R62):
the frame is the result, and `CONSUMED` its length (45_frame_decoder.md R232). -/
def Obligations.DecodeAcceptsWellFormedFrame : Prop :=
  ∀ (s : State) (r : RawFrame) (rest : List Byte),
    r.WellFormed s.operands.netid s.operands.key →
    s.operands.input = serializeFrame r ++ rest →
    ∃ t, exec .decode s = .next t ∧ t.results.status = .ok ∧ t.results.rawOut = r ∧
      t.results.consumed.toNat = (serializeFrame r).length ∧ t.operands = s.operands

/-- What DECODE returns with `Ok` is well formed (10_state.md R31), `CONSUMED` is its `FrameLen`
(30_encoding.md R72), and serializing it gives back the bytes read (46_frame_encoder.md R262). -/
def Obligations.DecodedFrameIsWellFormed : Prop :=
  ∀ s t : State, exec .decode s = .next t → t.results.status = .ok →
    t.results.rawOut.WellFormed s.operands.netid s.operands.key ∧
    t.results.consumed.toNat =
      frameLen t.results.rawOut.destinationsB.length t.results.rawOut.destinationC.isSome
        t.results.rawOut.ctrl2.isSome (8 * t.results.rawOut.wireUnits) ∧
    serializeFrame t.results.rawOut = s.operands.input.take t.results.consumed.toNat

/-- The first two checks of DECODE, in order (45_frame_decoder.md R222, R223): the id before anything
beyond it is read, then the marker. -/
def Obligations.DecodeChecksIdThenMarker : Prop :=
  ∀ s : State, ∃ t, exec .decode s = .next t ∧ t.operands = s.operands ∧
    (s.operands.input.length < 4 → t.results.status = .error .bufferOverflow) ∧
    (∀ (id : Bytes4) (rest : List Byte), s.operands.input = id.toList ++ rest →
      id ≠ s.operands.netid → t.results.status = .error .notSameId) ∧
    (∀ rest : List Byte, s.operands.input = s.operands.netid.toList ++ rest → rest.length < 4 →
      t.results.status = .error .bufferOverflow) ∧
    (∀ (marker : Bytes4) (rest : List Byte),
      s.operands.input = s.operands.netid.toList ++ marker.toList ++ rest →
      marker ≠ ⟨0x41 + s.operands.key.last, 0x52 + s.operands.key.last,
        0x49 + s.operands.key.last, 0x53 + s.operands.key.last⟩ →
      t.results.status = .error .notSameAris)

/-- Every span cut before the end of its frame gives `BufferOverflow` (20_memory.md R52;
45_frame_decoder.md R240; 70_reset_and_hazards.md R395). -/
def Obligations.DecodeOfTruncatedFrameOverflows : Prop :=
  ∀ (s t : State) (n : Nat), exec .decode s = .next t → t.results.status = .ok →
    n < t.results.consumed.toNat →
    ∃ u, exec .decode (s.withInput (s.operands.input.take n)) = .next u ∧
      u.results.status = .error .bufferOverflow

/-- One flipped bit of a frame that decodes (45_frame_decoder.md R236): what DECODE reports, region by
region. The bits of `destinations`, `from` and `more_header`, which change the parse, are the only
ones of which nothing is said. -/
def Obligations.DecodeReportsSingleBitFlip : Prop :=
  ∀ (s t : State) (p k : Nat), exec .decode s = .next t → t.results.status = .ok →
    p < s.operands.input.length → k < 8 →
    ∃ u, exec .decode (s.withInput (flipBit s.operands.input p k)) = .next u ∧
      (p < 4 → u.results.status = .error .notSameId) ∧
      (4 ≤ p → p < 8 → u.results.status = .error .notSameAris) ∧
      ((p = 8 ∧ 4 ≤ k) ∨ (p = 9 ∧ 1 ≤ k ∧ k ≤ 3) ∨ p = 10 ∨ (p = 11 ∧ 1 ≤ k) ∨
          (12 ≤ p ∧ p < t.results.rawOut.headerBytes.length + 2) →
        u.results.status = .error .notSameCrcHeader) ∧
      (t.results.rawOut.headerBytes.length + 2 ≤ p → p + 4 < t.results.consumed.toNat →
        u.results.status = .error .notSameCrcData) ∧
      (t.results.consumed.toNat ≤ p + 4 → p < t.results.consumed.toNat →
        u.results.status = .error .notSameEnd) ∧
      (t.results.consumed.toNat ≤ p → u.results.status = .ok ∧
        u.results.rawOut = t.results.rawOut ∧ u.results.consumed = t.results.consumed)

/-- Of the key only byte 15 matters to DECODE (45_frame_decoder.md R238). -/
def Obligations.DecodeUsesOnlyLastKeyByte : Prop :=
  ∀ s s' t : State, s'.operands.input = s.operands.input →
    s'.operands.netid = s.operands.netid → s'.operands.key.last = s.operands.key.last →
    exec .decode s = .next t →
    ∃ t', exec .decode s' = .next t' ∧
      listedResults .decode t'.results = listedResults .decode t.results

-- ==== Frame Encoder, Logical Pack ====

/-- SERIALIZE (46_frame_encoder.md R262): the sections that are present, in wire order, always `Ok`. -/
def Obligations.SerializeConcatenatesSections : Prop :=
  ∀ s : State, ∃ t, exec .serialize s = .next t ∧ t.results.status = .ok ∧
    t.results.out =
      s.operands.rawIn.id.toList ++ s.operands.rawIn.aris.toList ++ s.operands.rawIn.ctrl.toList ++
        s.operands.rawIn.origin.toList ++ s.operands.rawIn.destinationA.toList ++
        (s.operands.rawIn.destinationsB.map Address.toList).flatten ++
        ((s.operands.rawIn.destinationC.map Address.toList).getD []) ++
        ((s.operands.rawIn.ctrl2.map Bytes4.toList).getD []) ++
        s.operands.rawIn.crcHeader.toList ++
        (s.operands.rawIn.data.getD []) ++
        ((s.operands.rawIn.crcData.map Bytes2.toList).getD []) ++
        s.operands.rawIn.frameEnd.toList ∧
    t.operands = s.operands

/-- PACK (47_logical_pack.md R307, R308; 46_frame_encoder.md R266, R272, R279): the checks in their
order, and each field of the RawFrame on success. `ct` is the ciphertext of R270. -/
def Obligations.PackBuildsEachFieldOrFirstError : Prop :=
  ∀ (s : State) (c : LogicalChunk) (ct : List Byte), s.operands.chunkIn = c →
    ct = (if s.operands.key = Config.zeroKey then c.data
      else aesEncrypt s.operands.key c.data) →
    ∃ t, exec .pack s = .next t ∧ t.operands = s.operands ∧
      (if 255 < c.destinationsB.length then t.results.status = .error .bufferOverflow
      else if c.ctrl.fromRelay = 1 ∧ c.destinationC = none then
        t.results.status = .error .nullDestination
      else if c.ctrl.moreHeader = 1 ∧ 255 < ct.length / 8 then
        t.results.status = .error .bufferOverflow
      else if c.frameEnd ≠ c.id then t.results.status = .error .notSameId
      else
        t.results.status = .ok ∧
        t.results.rawOut.id = c.id ∧
        t.results.rawOut.aris = arisEncrypt s.operands.key c.aris ∧
        be32 t.results.rawOut.ctrl =
          (c.ctrl.version.setWidth 32 <<< 28) |||
          (BitVec.ofNat 32 c.destinationsB.length <<< 20) |||
          (c.ctrl.optionBits.setWidth 32 <<< 17) ||| (c.ctrl.fromRelay.setWidth 32 <<< 16) |||
          (c.ctrl.sequenceNo.setWidth 32 <<< 10) ||| (c.ctrl.retry.setWidth 32 <<< 9) |||
          (c.ctrl.moreData.setWidth 32 <<< 8) ||| (c.ctrl.identifier.setWidth 32 <<< 1) |||
          c.ctrl.moreHeader.setWidth 32 ∧
        t.results.rawOut.origin = c.origin ∧
        t.results.rawOut.destinationA = c.destinationA ∧
        t.results.rawOut.destinationsB = c.destinationsB ∧
        t.results.rawOut.destinationC =
          (if c.ctrl.fromRelay = 1 then c.destinationC else none) ∧
        t.results.rawOut.ctrl2.map be32 =
          (if c.ctrl.moreHeader = 1 then
            some ((BitVec.ofNat 32 (ct.length / 8) <<< 24) |||
              (c.ctrl2.feature.setWidth 32 <<< 23) ||| (c.ctrl2.negAnswer.setWidth 32 <<< 22) |||
              (c.ctrl2.freqSwitch.setWidth 32 <<< 21))
          else none) ∧
        t.results.rawOut.data =
          (if c.ctrl.moreHeader = 1 ∧ 0 < ct.length then some ct else none) ∧
        be16 t.results.rawOut.crcHeader = crc16 t.results.rawOut.headerBytes ∧
        t.results.rawOut.crcData.map be16 =
          (if c.ctrl.moreHeader = 1 ∧ 0 < ct.length then some (crc16 ct) else none) ∧
        t.results.rawOut.frameEnd = c.frameEnd)

/-- ENCODE is PACK followed by SERIALIZE, error for error (46_frame_encoder.md R263). -/
def Obligations.EncodeIsPackThenSerialize : Prop :=
  ∀ s : State, ∃ t u, exec .pack s = .next t ∧ exec .encode s = .next u ∧
    u.results.status = t.results.status ∧
    (t.results.status = .ok → u.results.out = serializeFrame t.results.rawOut) ∧
    u.operands = s.operands

/-- ENCODE of a well-formed chunk completes, with the length of 46_frame_encoder.md R278, between 30 and
3612 bytes (00_scope.md R9). -/
def Obligations.EncodeLengthOfWellFormedChunk : Prop :=
  ∀ (s : State) (c : LogicalChunk) (n : Nat), s.operands.chunkIn = c →
    c.WellFormed s.operands.key →
    n = (if c.ctrl.moreHeader = 1 then
        (if s.operands.key = Config.zeroKey then c.data.length
          else 16 * (c.data.length / 16 + 1))
      else 0) →
    ∃ t, exec .encode s = .next t ∧ t.results.status = .ok ∧ t.operands = s.operands ∧
      t.results.out.length =
        8 + 4 + 12 + 6 * c.destinationsB.length + 6 * c.ctrl.fromRelay.toNat +
          4 * c.ctrl.moreHeader.toNat + 2 + n + 2 * (if 0 < n then 1 else 0) + 4 ∧
      30 ≤ t.results.out.length ∧ t.results.out.length ≤ 3612

/-- Encode then decode (46_frame_encoder.md R282): the bytes ENCODE gives for a well-formed chunk with
the plain marker decode with `Ok` to the RawFrame PACK gives, all bytes consumed; with another marker the
encoder still succeeds and the decoder reports `NotSameAris`. -/
def Obligations.DecodeUndoesEncode : Prop :=
  ∀ s u : State, s.operands.chunkIn.WellFormed s.operands.key →
    u.operands.key = s.operands.key → u.operands.netid = s.operands.chunkIn.id →
    ∃ t p, exec .encode s = .next t ∧ t.results.status = .ok ∧
      exec .pack s = .next p ∧ p.results.status = .ok ∧
      (u.operands.input = t.results.out →
        ∃ v, exec .decode u = .next v ∧
          (s.operands.chunkIn.aris = Config.arisLiteral →
            v.results.status = .ok ∧ v.results.rawOut = p.results.rawOut ∧
            v.results.consumed.toNat = t.results.out.length) ∧
          (s.operands.chunkIn.aris ≠ Config.arisLiteral →
            v.results.status = .error .notSameAris))

/-- Pack then unpack (47_logical_pack.md R312): the chunk comes back but for the marker, which is
obfuscated, and the two CRC fields, which are the computed ones, `00 00` for absent data. -/
def Obligations.UnpackUndoesPack : Prop :=
  ∀ s u : State, s.operands.chunkIn.WellFormed s.operands.key →
    u.operands.key = s.operands.key →
    ∃ t, exec .pack s = .next t ∧ t.results.status = .ok ∧
      (u.operands.rawIn = t.results.rawOut →
        ∃ v, exec .unpack u = .next v ∧ v.results.status = .ok ∧
          v.results.chunkOut =
            { s.operands.chunkIn with
              aris := arisEncrypt s.operands.key s.operands.chunkIn.aris
              crcHeader := unbe16 (crc16 t.results.rawOut.headerBytes)
              crcData := (t.results.rawOut.data.map (fun d => unbe16 (crc16 d))).getD ⟨0, 0⟩ })

/-- The full chain (47_logical_pack.md R313; 30_encoding.md R88): what ENCODE sends, DECODE and UNPACK
give back, but for the marker and the two CRC fields. -/
def Obligations.ReceiveUndoesSend : Prop :=
  ∀ (c : LogicalChunk) (key : Bytes16), c.WellFormed key → c.aris = Config.arisLiteral →
    ∃ b c', send c key = .ok b ∧ encodeChunk c key = .ok b ∧ receive b key c.id = .ok c' ∧
      { c' with aris := c.aris, crcHeader := c.crcHeader, crcData := c.crcData } = c ∧
      c'.aris = arisEncrypt key c.aris

/-- Unpack then pack (47_logical_pack.md R314 with R270 and R304): the identity on a well-formed RawFrame
when byte 15 of the key is 0, the reserved bits of `ctrl2` are 0, and a frame with a `ctrl2` has data or
the key is the null key. R314 does not name the last condition, but R270 encrypts even an empty payload
under a key that is not null, so that PACK gives 16 bytes of data where the frame had none
(notes/assumptions/11.md). -/
def Obligations.PackUndoesUnpack : Prop :=
  ∀ (s t u : State) (netid : Bytes4), s.operands.rawIn.WellFormed netid s.operands.key →
    s.operands.key.last = 0 →
    (∀ w, s.operands.rawIn.ctrl2 = some w → (be32 w).extractLsb' 0 21 = 0) →
    (s.operands.rawIn.ctrl2.isSome = true →
      s.operands.rawIn.data.isSome = true ∨ s.operands.key = Config.zeroKey) →
    exec .unpack s = .next t → t.results.status = .ok →
    u.operands.key = s.operands.key → u.operands.chunkIn = t.results.chunkOut →
    ∃ v, exec .pack u = .next v ∧ v.results.status = .ok ∧
      v.results.rawOut = s.operands.rawIn

/-- UNPACK (47_logical_pack.md R301 to R305, R310): the named fields, the sections copied verbatim, the
payload opened, or the first error. `opened` is the payload of R304, when data is looked at. -/
def Obligations.UnpackCopiesAndOpensOrFirstError : Prop :=
  ∀ (s : State) (r : RawFrame), s.operands.rawIn = r →
    ∃ t, exec .unpack s = .next t ∧ t.operands = s.operands ∧
      (if moreHeaderField.get r.ctrl = 1 ∧ r.ctrl2 = none then
        t.results.status = .error .generic
      else
        ∀ opened : Except ErrorKind (List Byte),
          opened = (if moreHeaderField.get r.ctrl = 1 ∧ r.data.isSome = true then
            (if s.operands.key = Config.zeroKey then .ok (r.data.getD [])
              else aesDecrypt s.operands.key (r.data.getD []))
            else .ok []) →
          match opened with
          | .error kind => t.results.status = .error kind
          | .ok plain =>
            t.results.status = .ok ∧
            t.results.chunkOut.ctrl = unpackCtrl1 r.ctrl ∧
            t.results.chunkOut.id = r.id ∧ t.results.chunkOut.aris = r.aris ∧
            t.results.chunkOut.origin = r.origin ∧
            t.results.chunkOut.destinationA = r.destinationA ∧
            t.results.chunkOut.destinationsB = r.destinationsB ∧
            t.results.chunkOut.destinationC = r.destinationC ∧
            t.results.chunkOut.crcHeader = r.crcHeader ∧
            t.results.chunkOut.crcData = r.crcData.getD ⟨0, 0⟩ ∧
            t.results.chunkOut.frameEnd = r.frameEnd ∧
            t.results.chunkOut.data = plain ∧
            (moreHeaderField.get r.ctrl ≠ 1 → t.results.chunkOut.ctrl2 = ⟨0, 0, 0, 0⟩) ∧
            (∀ w, moreHeaderField.get r.ctrl = 1 → r.ctrl2 = some w →
              t.results.chunkOut.ctrl2.feature = featureField.get w ∧
              t.results.chunkOut.ctrl2.negAnswer = negAnswerField.get w ∧
              t.results.chunkOut.ctrl2.freqSwitch = freqSwitchField.get w ∧
              (r.data = none → t.results.chunkOut.ctrl2.dataLength.toNat =
                (dataLengthField.get w).toNat) ∧
              (r.data ≠ none → plain.length < 65536 →
                t.results.chunkOut.ctrl2.dataLength.toNat = plain.length)))

-- ==== the two wire-word rows ====

/-- Control word 1 is taken by the decoder (45_frame_decoder.md R224; the model's choice of a meaning for
the row, notes/assumptions/4.md): the three structural fields, the cursor past the word, and nothing
else. -/
def Obligations.CtrlWord1TakesStructure : Prop :=
  ∀ (c : ControlWord1Fields) (s : State), ∃ t, exec (.ctrlWord1 c) s = .next t ∧
    t.work.destinations = c.destinations ∧ t.work.fromRelay = c.fromRelay ∧
    t.work.moreHeader = c.moreHeader ∧ t.work.cursor = s.work.cursor + 4 ∧
    t.work.dataUnits = s.work.dataUnits ∧ t.operands = s.operands ∧ t.results = s.results ∧
    t.source = s.source

/-- Control word 2 is taken by the decoder (45_frame_decoder.md R228, R230; the model's choice of a
meaning for the row, notes/assumptions/4.md): `data_length`, the cursor past the word, and nothing
else. -/
def Obligations.CtrlWord2TakesDataLength : Prop :=
  ∀ (w : ControlWord2Wire) (s : State), ∃ t, exec (.ctrlWord2 w) s = .next t ∧
    t.work.dataUnits = w.dataUnits ∧ t.work.cursor = s.work.cursor + 4 ∧
    t.work.destinations = s.work.destinations ∧ t.work.fromRelay = s.work.fromRelay ∧
    t.work.moreHeader = s.work.moreHeader ∧ t.operands = s.operands ∧ t.results = s.results ∧
    t.source = s.source

/-- The control words of a frame fix its length (30_encoding.md R90): after the decoder has taken them,
in order, the length they give is the `CONSUMED` of DECODE and the header length is that of the bytes
its header CRC covers (R72, R73). -/
def Obligations.ControlWordsFixFrameLength : Prop :=
  ∀ s t a b : State, exec .decode s = .next t → t.results.status = .ok →
    exec (.ctrlWord1 (unpackCtrl1 t.results.rawOut.ctrl)) s = .next a →
    (t.results.rawOut.ctrl2 = none → b = a) →
    (∀ w, t.results.rawOut.ctrl2 = some w →
      exec (.ctrlWord2 (unpackCtrl2 w)) a = .next b) →
    a.work.headerLength = t.results.rawOut.headerBytes.length ∧
    b.work.frameLength = t.results.consumed.toNat

/-- The least frame length is 30 and the most 3612 (30_encoding.md R72). -/
def Obligations.FrameLengthIsBounded : Prop :=
  (∀ w : DecoderWork, 30 ≤ w.frameLength ∧ w.frameLength ≤ 3612) ∧
  (∃ w : DecoderWork, w.frameLength = 30) ∧ (∃ w : DecoderWork, w.frameLength = 3612)
end

