-- ==== Sys2Proof/Laws/Bytes.lean ====
section
/-! SUPPORT. Byte strings: lengths, the list of a string and back, big-endian packing and back. -/

namespace Sys2Proof

@[simp] theorem Bytes2.toList_length (v : Bytes2) : v.toList.length = 2 := rfl
@[simp] theorem Bytes4.toList_length (v : Bytes4) : v.toList.length = 4 := rfl
@[simp] theorem Address.toList_length (v : Address) : v.toList.length = 6 := rfl
@[simp] theorem Bytes16.toList_length (v : Bytes16) : v.toList.length = 16 := rfl

@[simp] theorem Bytes2.ofList_toList_append (v : Bytes2) (l : List Byte) :
    Bytes2.ofList (v.toList ++ l) = v := rfl
@[simp] theorem Bytes4.ofList_toList_append (v : Bytes4) (l : List Byte) :
    Bytes4.ofList (v.toList ++ l) = v := rfl
@[simp] theorem Address.ofList_toList_append (v : Address) (l : List Byte) :
    Address.ofList (v.toList ++ l) = v := rfl
@[simp] theorem Bytes16.ofList_toList_append (v : Bytes16) (l : List Byte) :
    Bytes16.ofList (v.toList ++ l) = v := rfl

@[simp] theorem Bytes2.ofList_toList (v : Bytes2) : Bytes2.ofList v.toList = v := rfl
@[simp] theorem Bytes4.ofList_toList (v : Bytes4) : Bytes4.ofList v.toList = v := rfl
@[simp] theorem Address.ofList_toList (v : Address) : Address.ofList v.toList = v := rfl
@[simp] theorem Bytes16.ofList_toList (v : Bytes16) : Bytes16.ofList v.toList = v := rfl

theorem Bytes2.toList_ofList {l : List Byte} (h : l.length = 2) : (Bytes2.ofList l).toList = l := by
  match l, h with
  | [_, _], _ => rfl

theorem Bytes4.toList_ofList {l : List Byte} (h : l.length = 4) : (Bytes4.ofList l).toList = l := by
  match l, h with
  | [_, _, _, _], _ => rfl

theorem Address.toList_ofList {l : List Byte} (h : l.length = 6) :
    (Address.ofList l).toList = l := by
  match l, h with
  | [_, _, _, _, _, _], _ => rfl

theorem Bytes16.toList_ofList {l : List Byte} (h : l.length = 16) :
    (Bytes16.ofList l).toList = l := by
  match l, h with
  | [_, _, _, _, _, _, _, _, _, _, _, _, _, _, _, _], _ => rfl

theorem Bytes4.toList_injective {v w : Bytes4} (h : v.toList = w.toList) : v = w := by
  simpa using congrArg Bytes4.ofList h

/-- Bit `i` of a big-endian word lies in byte `3 - i / 8` (20_memory.md R57). -/
theorem be32_getLsbD (v : Bytes4) (i : Nat) :
    (be32 v).getLsbD i =
      if i < 8 then v.b3.getLsbD i
      else if i < 16 then v.b2.getLsbD (i - 8)
      else if i < 24 then v.b1.getLsbD (i - 16)
      else if i < 32 then v.b0.getLsbD (i - 24) else false := by
  have h0 : ∀ (b : Byte) j, 8 ≤ j → b.getLsbD j = false := fun b j h => b.getLsbD_of_ge j h
  simp only [be32, BitVec.getLsbD_or, BitVec.getLsbD_shiftLeft, BitVec.getLsbD_setWidth]
  split_ifs with h1 h2 h3 h4
  · simp [show i < 32 by omega, show i < 24 by omega, show i < 16 by omega, h1]
  · simp [show i < 32 by omega, show i < 24 by omega, show i < 16 by omega, h1,
      show i - 8 < 32 by omega, h0 v.b3 i (by omega)]
  · simp [show i < 32 by omega, show i < 24 by omega, show ¬ i < 16 by omega, h1,
      show i - 16 < 32 by omega, h0 v.b3 i (by omega), h0 v.b2 (i - 8) (by omega)]
  · simp [show i < 32 by omega, show ¬ i < 24 by omega, show ¬ i < 16 by omega, h1,
      show i - 24 < 32 by omega, h0 v.b3 i (by omega), h0 v.b2 (i - 8) (by omega),
      h0 v.b1 (i - 16) (by omega)]
  · simp [show ¬ i < 32 by omega]

/-- `UNBE32` undoes `BE32` (00_scope.md R13). -/
@[simp] theorem unbe32_be32 (v : Bytes4) : unbe32 (be32 v) = v := by
  obtain ⟨b0, b1, b2, b3⟩ := v
  simp only [unbe32, Bytes4.mk.injEq]
  refine ⟨?_, ?_, ?_, ?_⟩ <;>
    (apply BitVec.eq_of_getLsbD_eq; intro i hi
     simp only [BitVec.getLsbD_extractLsb', be32_getLsbD])
  · simp [hi, show ¬ 24 + i < 8 by omega, show ¬ 24 + i < 16 by omega, show ¬ 24 + i < 24 by omega,
      show 24 + i < 32 by omega]
  · simp [hi, show ¬ 16 + i < 8 by omega, show ¬ 16 + i < 16 by omega, show 16 + i < 24 by omega]
  · simp [hi, show ¬ 8 + i < 8 by omega, show 8 + i < 16 by omega]
  · simp [hi]

/-- `BE32` undoes `UNBE32` (00_scope.md R13). -/
@[simp] theorem be32_unbe32 (w : BitVec 32) : be32 (unbe32 w) = w := by
  apply BitVec.eq_of_getLsbD_eq
  intro i hi
  simp only [be32_getLsbD, unbe32, BitVec.getLsbD_extractLsb']
  split_ifs with h1 h2 h3
  · simp [h1]
  · simp [show i - 8 < 8 by omega, show 8 + (i - 8) = i by omega]
  · simp [show i - 16 < 8 by omega, show 16 + (i - 16) = i by omega]
  · simp [show i - 24 < 8 by omega, show 24 + (i - 24) = i by omega]

theorem be16_getLsbD (v : Bytes2) (i : Nat) :
    (be16 v).getLsbD i =
      if i < 8 then v.b1.getLsbD i
      else if i < 16 then v.b0.getLsbD (i - 8) else false := by
  have h0 : ∀ (b : Byte) j, 8 ≤ j → b.getLsbD j = false := fun b j h => b.getLsbD_of_ge j h
  simp only [be16, BitVec.getLsbD_or, BitVec.getLsbD_shiftLeft, BitVec.getLsbD_setWidth]
  split_ifs with h1 h2
  · simp [show i < 16 by omega, h1]
  · simp [h2, h1, show i - 8 < 16 by omega, h0 v.b1 i (by omega)]
  · simp [h2]

@[simp] theorem unbe16_be16 (v : Bytes2) : unbe16 (be16 v) = v := by
  obtain ⟨b0, b1⟩ := v
  simp only [unbe16, Bytes2.mk.injEq]
  refine ⟨?_, ?_⟩ <;>
    (apply BitVec.eq_of_getLsbD_eq; intro i hi
     simp only [BitVec.getLsbD_extractLsb', be16_getLsbD])
  · simp [hi, show ¬ 8 + i < 8 by omega, show 8 + i < 16 by omega]
  · simp [hi]

@[simp] theorem be16_unbe16 (w : BitVec 16) : be16 (unbe16 w) = w := by
  apply BitVec.eq_of_getLsbD_eq
  intro i hi
  simp only [be16_getLsbD, unbe16, BitVec.getLsbD_extractLsb']
  split_ifs with h1
  · simp [h1]
  · simp [show i - 8 < 8 by omega, show 8 + (i - 8) = i by omega]

end Sys2Proof
end

