-- ==== Sys2Proof/Laws/Ops.lean ====
section
/-! SUPPORT. What each named operation over spans can do: one lemma per operation. -/

namespace Sys2Proof

@[simp] theorem check_eq_ok {holds : Bool} {kind : ErrorKind} {u : Unit} :
    check holds kind = .ok u ↔ holds = true := by
  cases holds <;> simp [check]

@[simp] theorem check_eq_error {holds : Bool} {kind kind' : ErrorKind} :
    check holds kind = .error kind' ↔ holds = false ∧ kind = kind' := by
  cases holds <;> simp [check]

@[simp] theorem check_true (kind : ErrorKind) : check true kind = .ok () := rfl
@[simp] theorem check_false (kind : ErrorKind) : check false kind = .error kind := rfl

/-- An operation in two parts has a result when both have. -/
theorem bind_eq_ok {α β : Type} {x : Except ErrorKind α} {f : α → Except ErrorKind β} {b : β} :
    (x >>= f) = .ok b ↔ ∃ a, x = .ok a ∧ f a = .ok b := by
  cases x with
  | error e => exact ⟨fun h => (by cases h), fun ⟨a, h, _⟩ => (by cases h)⟩
  | ok a => exact ⟨fun h => ⟨a, rfl, h⟩, fun ⟨a', h, h'⟩ => (by cases h; exact h')⟩

/-- An operation in two parts fails with the first error of its parts (60_exceptions.md R346). -/
theorem bind_eq_error {α β : Type} {x : Except ErrorKind α} {f : α → Except ErrorKind β}
    {e : ErrorKind} :
    (x >>= f) = .error e ↔ x = .error e ∨ ∃ a, x = .ok a ∧ f a = .error e := by
  cases x with
  | error e' =>
    exact ⟨fun h => .inl (by cases h; rfl),
      fun h => h.elim (fun h => by cases h; rfl) (fun ⟨a, h, _⟩ => by cases h)⟩
  | ok a =>
    exact ⟨fun h => .inr ⟨a, rfl, h⟩,
      fun h => h.elim (fun h => by cases h) (fun ⟨a', h, h'⟩ => by cases h; exact h')⟩

@[simp] theorem ok_bind {α β : Type} (a : α) (f : α → Except ErrorKind β) :
    ((Except.ok a : Except ErrorKind α) >>= f) = f a := rfl

@[simp] theorem error_bind {α β : Type} (e : ErrorKind) (f : α → Except ErrorKind β) :
    ((Except.error e : Except ErrorKind α) >>= f) = .error e := rfl

namespace Machine

/-- `MemRead` answers the bytes exactly when they are all there (20_memory.md R52). -/
theorem memRead_eq_ok {span : List Byte} {p n : Nat} {v : List Byte} :
    memRead span p n = .ok v ↔ p + n ≤ span.length ∧ v = (span.drop p).take n := by
  unfold memRead
  split
  · simp; omega
  · constructor
    · intro h; cases h; exact ⟨by omega, rfl⟩
    · rintro ⟨_, rfl⟩; rfl

/-- `MemRead` fails only with `BufferOverflow`, exactly when a byte is missing (20_memory.md R52). -/
theorem memRead_eq_error {span : List Byte} {p n : Nat} {e : ErrorKind} :
    memRead span p n = .error e ↔ span.length < p + n ∧ e = .bufferOverflow := by
  unfold memRead
  split
  · constructor
    · intro h; cases h; exact ⟨by assumption, rfl⟩
    · rintro ⟨_, rfl⟩; rfl
  · simp; omega

theorem memRead_length {span : List Byte} {p n : Nat} {v : List Byte}
    (h : memRead span p n = .ok v) : v.length = n := by
  obtain ⟨hl, rfl⟩ := memRead_eq_ok.1 h
  simp only [List.length_take, List.length_drop]
  omega

/-- A read inside the first part of a span does not see what follows it. -/
theorem memRead_append_left {a b : List Byte} {p n : Nat} (h : p + n ≤ a.length) :
    memRead (a ++ b) p n = memRead a p n := by
  unfold memRead
  rw [if_neg (by simp; omega), if_neg (by omega)]
  congr 1
  rw [List.drop_append_of_le_length (by omega), List.take_append_of_le_length (by simp; omega)]

/-- A read of the middle part of a span. -/
theorem memRead_middle (a b c : List Byte) : memRead (a ++ (b ++ c)) a.length b.length = .ok b :=
  memRead_eq_ok.2 ⟨by simp, by simp⟩

theorem map_eq_ok {α β : Type} {x : Except ErrorKind α} {f : α → β} {b : β} :
    x.map f = .ok b ↔ ∃ a, x = .ok a ∧ f a = b := by
  cases x with
  | error e => exact ⟨fun h => (by cases h), fun ⟨a, h, _⟩ => (by cases h)⟩
  | ok a =>
    exact ⟨fun h => ⟨a, rfl, (by cases h; rfl)⟩, fun ⟨a', h, h'⟩ => (by cases h; cases h'; rfl)⟩

theorem map_eq_error {α β : Type} {x : Except ErrorKind α} {f : α → β} {e : ErrorKind} :
    x.map f = .error e ↔ x = .error e := by
  cases x with
  | error e' => exact ⟨fun h => (by cases h; rfl), fun h => (by cases h; rfl)⟩
  | ok a => exact ⟨fun h => (by cases h), fun h => (by cases h)⟩

/-- A four-byte read answers the string whose list is the bytes there. -/
theorem readBytes4_eq_ok {span : List Byte} {p : Nat} {v : Bytes4} :
    readBytes4 span p = .ok v ↔ p + 4 ≤ span.length ∧ v.toList = (span.drop p).take 4 := by
  unfold readBytes4
  rw [map_eq_ok]
  constructor
  · rintro ⟨l, h, rfl⟩
    have hl := memRead_length h
    obtain ⟨h1, rfl⟩ := memRead_eq_ok.1 h
    exact ⟨h1, Bytes4.toList_ofList hl⟩
  · rintro ⟨h1, h2⟩
    exact ⟨_, memRead_eq_ok.2 ⟨h1, rfl⟩, by rw [← h2]; rfl⟩

theorem readBytes2_eq_ok {span : List Byte} {p : Nat} {v : Bytes2} :
    readBytes2 span p = .ok v ↔ p + 2 ≤ span.length ∧ v.toList = (span.drop p).take 2 := by
  unfold readBytes2
  rw [map_eq_ok]
  constructor
  · rintro ⟨l, h, rfl⟩
    have hl := memRead_length h
    obtain ⟨h1, rfl⟩ := memRead_eq_ok.1 h
    exact ⟨h1, Bytes2.toList_ofList hl⟩
  · rintro ⟨h1, h2⟩
    exact ⟨_, memRead_eq_ok.2 ⟨h1, rfl⟩, by rw [← h2]; rfl⟩

theorem readAddress_eq_ok {span : List Byte} {p : Nat} {v : Address} :
    readAddress span p = .ok v ↔ p + 6 ≤ span.length ∧ v.toList = (span.drop p).take 6 := by
  unfold readAddress
  rw [map_eq_ok]
  constructor
  · rintro ⟨l, h, rfl⟩
    have hl := memRead_length h
    obtain ⟨h1, rfl⟩ := memRead_eq_ok.1 h
    exact ⟨h1, Address.toList_ofList hl⟩
  · rintro ⟨h1, h2⟩
    exact ⟨_, memRead_eq_ok.2 ⟨h1, rfl⟩, by rw [← h2]; rfl⟩

theorem readBytes4_eq_error {span : List Byte} {p : Nat} {e : ErrorKind} :
    readBytes4 span p = .error e ↔ span.length < p + 4 ∧ e = .bufferOverflow := by
  rw [readBytes4, map_eq_error, memRead_eq_error]

theorem readBytes2_eq_error {span : List Byte} {p : Nat} {e : ErrorKind} :
    readBytes2 span p = .error e ↔ span.length < p + 2 ∧ e = .bufferOverflow := by
  rw [readBytes2, map_eq_error, memRead_eq_error]

theorem readAddress_eq_error {span : List Byte} {p : Nat} {e : ErrorKind} :
    readAddress span p = .error e ↔ span.length < p + 6 ∧ e = .bufferOverflow := by
  rw [readAddress, map_eq_error, memRead_eq_error]

/-- A run of address reads answers `count` addresses whose bytes, in order, are those of the span
(45_frame_decoder.md R226). -/
theorem readAddresses_eq_ok {span : List Byte} {p count : Nat} {l : List Address} :
    readAddresses span p count = .ok l ↔
      (count = 0 ∨ p + 6 * count ≤ span.length) ∧ l.length = count ∧
        l.flatMap Address.toList = (span.drop p).take (6 * count) := by
  induction count generalizing p l with
  | zero =>
    constructor
    · intro h; cases h; simp
    · rintro ⟨-, h, -⟩
      cases List.eq_nil_of_length_eq_zero h
      rfl
  | succ n ih =>
    simp only [readAddresses, bind_eq_ok, readAddress_eq_ok, ih]
    constructor
    · rintro ⟨a, ⟨h1, h2⟩, rest, ⟨h3, h4, h5⟩, h6⟩
      cases h6
      refine ⟨.inr (by omega), by simp [h4], ?_⟩
      rw [List.flatMap_cons, h2, h5, show 6 * (n + 1) = 6 + 6 * n by omega, List.take_add,
        List.drop_drop]
    · rintro ⟨h1, h2, h3⟩
      match l, h2 with
      | a :: rest, h2 =>
        have h2 : rest.length = n := by simpa using h2
        rw [show 6 * (n + 1) = 6 + 6 * n by omega, List.take_add, List.drop_drop,
          List.flatMap_cons] at h3
        have hl : ((span.drop p).take 6).length = 6 := by simp; omega
        obtain ⟨h4, h5⟩ := List.append_inj h3 (by rw [hl]; rfl)
        exact ⟨a, ⟨by omega, h4⟩, rest, ⟨by omega, h2, h5⟩, rfl⟩

theorem readAddresses_eq_error {span : List Byte} {p count : Nat} {e : ErrorKind} :
    readAddresses span p count = .error e ↔
      0 < count ∧ span.length < p + 6 * count ∧ e = .bufferOverflow := by
  induction count generalizing p with
  | zero => simp [readAddresses]
  | succ n ih =>
    simp only [readAddresses, bind_eq_error, readAddress_eq_error, ih, readAddress_eq_ok]
    constructor
    · rintro (⟨h, rfl⟩ | ⟨a, ⟨h1, h2⟩, h3 | ⟨_, _, h4⟩⟩)
      · exact ⟨by omega, by omega, rfl⟩
      · exact ⟨by omega, by omega, h3.2.2⟩
      · cases h4
    · rintro ⟨-, h, rfl⟩
      by_cases h6 : span.length < p + 6
      · exact .inl ⟨h6, rfl⟩
      · refine .inr ⟨Address.ofList ((span.drop p).take 6), ⟨by omega, ?_⟩, .inl ⟨by omega, by omega, rfl⟩⟩
        exact Address.toList_ofList (by simp; omega)

/-- An optional section that is present is its read; one that is not reads nothing. -/
theorem readOptional_eq_ok {α : Type} {present : Bool} {read : Except ErrorKind α}
    {v : Option α} :
    readOptional present read = .ok v ↔
      (present = true ∧ ∃ a, read = .ok a ∧ v = some a) ∨ (present = false ∧ v = none) := by
  cases present with
  | true =>
    simp only [readOptional, if_true, map_eq_ok]
    constructor
    · rintro ⟨a, h1, h2⟩
      exact .inl ⟨trivial, a, h1, h2.symm⟩
    · rintro (⟨-, a, h1, h2⟩ | ⟨h, -⟩)
      · exact ⟨a, h1, h2.symm⟩
      · simp at h
  | false => simp [readOptional, eq_comm]

theorem readOptional_eq_error {α : Type} {present : Bool} {read : Except ErrorKind α}
    {e : ErrorKind} :
    readOptional present read = .error e ↔ present = true ∧ read = .error e := by
  cases present <;> simp [readOptional, map_eq_error]

end Machine

end Sys2Proof
end

