-- ==== Sys2Proof/Laws/Aes.lean ====
section
/-! SUPPORT. Spans and blocks, the padding, AES_DECRYPT's outcomes, and the CRC of a span in two
parts. -/

namespace Sys2Proof

@[simp] theorem ofBlocks_nil : ofBlocks [] = [] := rfl

theorem ofBlocks_cons (b : Bytes16) (l : List Bytes16) :
    ofBlocks (b :: l) = b.toList ++ ofBlocks l := rfl

@[simp] theorem ofBlocks_length (l : List Bytes16) : (ofBlocks l).length = 16 * l.length := by
  induction l with
  | nil => rfl
  | cons b l ih => rw [ofBlocks_cons, List.length_append, ih]; simp; omega

@[simp] theorem toBlocks_length (n : Nat) (l : List Byte) : (toBlocks n l).length = n := by
  induction n generalizing l with
  | zero => rfl
  | succ n ih => simp [toBlocks, ih]

/-- Blocks written out and read back are the blocks. -/
theorem toBlocks_ofBlocks (l : List Bytes16) : toBlocks l.length (ofBlocks l) = l := by
  induction l with
  | nil => rfl
  | cons b l ih =>
    have h : b.toList.length = Config.block := rfl
    simp only [List.length_cons, toBlocks, ofBlocks_cons]
    rw [← h, List.take_left, List.drop_left, ih, Bytes16.ofList_toList]

/-- A span of whole blocks cut and joined again is the span. -/
theorem ofBlocks_toBlocks {n : Nat} {l : List Byte} (h : l.length = 16 * n) :
    ofBlocks (toBlocks n l) = l := by
  induction n generalizing l with
  | zero =>
    cases List.eq_nil_of_length_eq_zero (by omega : l.length = 0)
    rfl
  | succ n ih =>
    have h1 : (l.take Config.block).length = 16 := by
      rw [List.length_take, Config.block]; omega
    have h2 : (l.drop Config.block).length = 16 * n := by
      rw [List.length_drop, Config.block]; omega
    rw [toBlocks, ofBlocks_cons, ih h2, Bytes16.toList_ofList h1, List.take_append_drop]

/-- Block `j` of a span. -/
theorem toBlocks_getElem (n j : Nat) (l : List Byte) (h : j < (toBlocks n l).length) :
    (toBlocks n l)[j] = Bytes16.ofList ((l.drop (16 * j)).take 16) := by
  induction n generalizing l j with
  | zero => simp [toBlocks] at h
  | succ n ih =>
    cases j with
    | zero => rfl
    | succ j =>
      simp only [toBlocks, List.getElem_cons_succ]
      rw [ih, List.drop_drop, Config.block, show 16 + 16 * j = 16 * (j + 1) by omega]

/-- Padding is never empty and makes whole blocks (42_aes_pkcs7.md R144). -/
theorem pkcs7Pad_length (input : List Byte) :
    (pkcs7Pad input).length = 16 * (input.length / 16 + 1) := by
  simp only [pkcs7Pad, padCount, Config.block, List.length_append, List.length_replicate]
  omega

/-- The ciphertext is longer than the plaintext, by 1 to 16 bytes (42_aes_pkcs7.md R146). -/
theorem aesEncrypt_length (key : Bytes16) (input : List Byte) :
    (aesEncrypt key input).length = 16 * (input.length / 16 + 1) := by
  simp only [aesEncrypt, ofBlocks_length, List.length_map, toBlocks_length, pkcs7Pad_length,
    Config.block]
  omega

theorem aesDecryptBlocks_length {key : Bytes16} {input : List Byte} (h : input.length % 16 = 0) :
    (aesDecryptBlocks key input).length = input.length := by
  simp only [aesDecryptBlocks, ofBlocks_length, List.length_map, toBlocks_length, Config.block]
  omega

/-- AES_DECRYPT answers a plaintext exactly when the span is whole blocks that decrypt to the padded
plaintext (42_aes_pkcs7.md R152). -/
theorem pkcs7Strip_eq_ok {plain out : List Byte} :
    pkcs7Strip plain = .ok out ↔
      ∃ pad, pad = (plain.getD (plain.length - 1) 0).toNat ∧ 0 < pad ∧ pad ≤ 16 ∧
        (∀ b ∈ plain.drop (plain.length - pad), b.toNat = pad) ∧
        out = plain.take (plain.length - pad) := by
  simp only [pkcs7Strip, bind_eq_ok, check_eq_ok, Bool.and_eq_true, decide_eq_true_eq,
    List.all_eq_true, beq_iff_eq, Config.block]
  constructor
  · rintro ⟨-, ⟨h1, h2⟩, -, h3, h4⟩
    cases h4
    exact ⟨_, rfl, by omega, by simpa using h2, h3, rfl⟩
  · rintro ⟨_, rfl, h1, h2, h3, rfl⟩
    exact ⟨(), ⟨by omega, by simpa using h2⟩, (), h3, rfl⟩

/-- AES_DECRYPT fails with `InvalidArgument` exactly on a length that is 0 or no multiple of 16, and
with `InvalidPadding` exactly when the decrypted blocks cannot be stripped (42_aes_pkcs7.md R152). -/
theorem aesDecrypt_eq_error {key : Bytes16} {input : List Byte} {e : ErrorKind} :
    aesDecrypt key input = .error e ↔
      ((input.length = 0 ∨ input.length % 16 ≠ 0) ∧ e = .invalidArgument) ∨
      (input.length ≠ 0 ∧ input.length % 16 = 0 ∧
        pkcs7Strip (aesDecryptBlocks key input) = .error e) := by
  simp only [aesDecrypt, bind_eq_error, check_eq_error, check_eq_ok, Bool.and_eq_true,
    Bool.and_eq_false_iff, decide_eq_true_eq, decide_eq_false_iff_not, beq_iff_eq,
    beq_eq_false_iff_ne, Config.block, Decidable.not_not]
  constructor
  · rintro (⟨h, rfl⟩ | ⟨-, ⟨h1, h2⟩, h3⟩)
    · exact .inl ⟨h, rfl⟩
    · exact .inr ⟨h1, h2, h3⟩
  · rintro (⟨h, rfl⟩ | ⟨h1, h2, h3⟩)
    · exact .inl ⟨h, rfl⟩
    · exact .inr ⟨(), ⟨h1, h2⟩, h3⟩

theorem aesDecrypt_eq_ok {key : Bytes16} {input out : List Byte} :
    aesDecrypt key input = .ok out ↔
      input.length ≠ 0 ∧ input.length % 16 = 0 ∧
        pkcs7Strip (aesDecryptBlocks key input) = .ok out := by
  simp only [aesDecrypt, bind_eq_ok, check_eq_ok, Bool.and_eq_true, decide_eq_true_eq, beq_iff_eq,
    Config.block]
  exact ⟨fun ⟨_, ⟨h1, h2⟩, h3⟩ => ⟨h1, h2, h3⟩, fun ⟨h1, h2, h3⟩ => ⟨(), ⟨h1, h2⟩, h3⟩⟩

/-- The CRC of a span in two parts continues from the CRC of the first (41_crc16.md R121). -/
theorem crc16_append (a b : List Byte) : crc16 (a ++ b) = b.foldl crcStep (crc16 a) :=
  List.foldl_append

/-- A shift of the CRC register is linear over exclusive or (41_crc16.md R122). -/
theorem crcShift_xor (x y : BitVec 16) : crcShift (x ^^^ y) = crcShift x ^^^ crcShift y := by
  have cancel : ∀ a b : BitVec 16, a ^^^ (a ^^^ b) = b := fun a b => by
    rw [← BitVec.xor_assoc, BitVec.xor_self, BitVec.zero_xor]
  unfold crcShift
  rw [BitVec.getLsbD_xor, BitVec.shiftLeft_xor_distrib]
  cases x.getLsbD 15 <;> cases y.getLsbD 15
  · rfl
  · exact BitVec.xor_assoc _ _ _
  · show x <<< 1 ^^^ y <<< 1 ^^^ Config.crcPoly = x <<< 1 ^^^ Config.crcPoly ^^^ y <<< 1
    rw [BitVec.xor_assoc, BitVec.xor_comm (y <<< 1), ← BitVec.xor_assoc]
  · show x <<< 1 ^^^ y <<< 1 = x <<< 1 ^^^ Config.crcPoly ^^^ (y <<< 1 ^^^ Config.crcPoly)
    rw [BitVec.xor_comm (y <<< 1), BitVec.xor_assoc, cancel, BitVec.xor_comm]

end Sys2Proof
end

