-- ==== Sys2Proof/Laws/Frames.lean ====
section
/-! SUPPORT. What DECODE of a span can do, said once: it answers a frame exactly when the span begins
with the bytes of a well-formed one (`decodeFrame_eq_ok_iff`). -/

namespace Sys2Proof

open Machine

theorem arisDecrypt_eq_ok {key : Bytes16} {marker : Bytes4} {u : Unit} :
    arisDecrypt key marker = .ok u ↔ arisCandidate key marker = Config.arisLiteral := by
  simp [arisDecrypt]

/-- The reads and checks of DECODE, in order, when all succeed (45_frame_decoder.md R222 to R232). -/
theorem decodeFrame_eq_ok {input : List Byte} {key : Bytes16} {netid : Bytes4} {r : RawFrame}
    {n : Nat} :
    decodeFrame input key netid = .ok (r, n) ↔
      (readBytes4 input 0 = .ok r.id ∧ r.id = netid) ∧
      (readBytes4 input 4 = .ok r.aris ∧ arisCandidate key r.aris = Config.arisLiteral) ∧
      readBytes4 input 8 = .ok r.ctrl ∧
      readAddress input 12 = .ok r.origin ∧ readAddress input 18 = .ok r.destinationA ∧
      readAddresses input 24 (destinationsField.get r.ctrl).toNat = .ok r.destinationsB ∧
      readOptional (fromField.get r.ctrl == 1)
        (readAddress input (24 + 6 * (destinationsField.get r.ctrl).toNat)) = .ok r.destinationC ∧
      readOptional (moreHeaderField.get r.ctrl == 1)
        (readBytes4 input (24 + 6 * (destinationsField.get r.ctrl).toNat +
          6 * count (fromField.get r.ctrl == 1))) = .ok r.ctrl2 ∧
      ∀ h, h = headerLen (destinationsField.get r.ctrl).toNat (fromField.get r.ctrl == 1)
          (moreHeaderField.get r.ctrl == 1) →
        (readBytes2 input h = .ok r.crcHeader ∧ be16 r.crcHeader = crc16 (input.take h)) ∧
        readOptional (decide (0 < r.wireUnits)) (memRead input (h + 2) (8 * r.wireUnits)) =
          .ok r.data ∧
        readOptional (decide (0 < r.wireUnits)) (readBytes2 input (h + 2 + 8 * r.wireUnits)) =
          .ok r.crcData ∧
        (∀ d c, r.data = some d → r.crcData = some c → be16 c = crc16 d) ∧
        readBytes4 input (h + 2 + 8 * r.wireUnits + 2 * count (decide (0 < r.wireUnits))) =
          .ok r.frameEnd ∧
        r.frameEnd = netid ∧
        n = h + 2 + 8 * r.wireUnits + 2 * count (decide (0 < r.wireUnits)) + 4 := by
  have h8 : ∀ k : Nat, decide (0 < Config.unit * k) = decide (0 < k) := by simp [Config.unit]
  simp only [decodeFrame, bind_eq_ok, check_eq_ok, arisDecrypt_eq_ok, h8]
  constructor
  · rintro ⟨id, h1, -, h2, aris, h3, -, h4, ctrl, h5, origin, h6, da, h7, db, h8, dc, h9, c2, h10,
      ch, h11, -, h12, data, h13, cd, h14, -, h15, fe, h16, -, h17, h18⟩
    cases h18
    refine ⟨⟨h1, by simpa using h2⟩, ⟨h3, h4⟩, h5, h6, h7, h8, h9, h10, ?_⟩
    rintro _ rfl
    refine ⟨⟨h11, by simpa using h12⟩, h13, h14, ?_, h16, by simpa using h17, rfl⟩
    rintro d c hd hc
    simp only at hd hc
    subst hd hc
    simpa using h15
  · rintro ⟨⟨h1, h2⟩, ⟨h3, h4⟩, h5, h6, h7, h8, h9, h10, hh⟩
    obtain ⟨⟨h11, h12⟩, h13, h14, h15, h16, h17, rfl⟩ := hh _ rfl
    refine ⟨r.id, h1, (), by simpa using h2, r.aris, h3, (), h4, r.ctrl, h5, r.origin, h6,
      r.destinationA, h7, r.destinationsB, h8, r.destinationC, h9, r.ctrl2, h10,
      r.crcHeader, h11, (), by simpa using h12, r.data, h13, r.crcData, h14, (), ?_, r.frameEnd,
      h16, (), by simpa using h17, rfl⟩
    cases hd : r.data with
    | none => rfl
    | some d =>
      cases hc : r.crcData with
      | none => rfl
      | some c => simpa using h15 d c hd hc


theorem count_le (b : Bool) : count b ≤ 1 := by cases b <;> simp [count]

/-- The bytes that an optional section adds (10_state.md R29). -/
def optionBytes {α : Type} (f : α → List Byte) (v : Option α) : List Byte := (v.map f).getD []

theorem RawFrame.headerBytes_eq (r : RawFrame) :
    r.headerBytes = r.id.toList ++ (r.aris.toList ++ (r.ctrl.toList ++ (r.origin.toList ++
      (r.destinationA.toList ++ (r.destinationsB.flatMap Address.toList ++
        (optionBytes Address.toList r.destinationC ++ optionBytes Bytes4.toList r.ctrl2)))))) := by
  unfold RawFrame.headerBytes optionBytes
  cases r.destinationC <;> cases r.ctrl2 <;> simp

theorem serializeFrame_eq (r : RawFrame) :
    serializeFrame r = r.headerBytes ++ (r.crcHeader.toList ++ (r.data.getD [] ++
      (optionBytes Bytes2.toList r.crcData ++ r.frameEnd.toList))) := by
  unfold serializeFrame optionBytes
  cases r.data <;> cases r.crcData <;> simp [memWrite]

theorem flatMap_address_length (l : List Address) :
    (l.flatMap Address.toList).length = 6 * l.length := by
  induction l with
  | nil => rfl
  | cons a l ih => rw [List.flatMap_cons, List.length_append, ih]; simp; omega

theorem RawFrame.headerBytes_length (r : RawFrame) :
    r.headerBytes.length =
      headerLen r.destinationsB.length r.destinationC.isSome r.ctrl2.isSome := by
  rw [RawFrame.headerBytes_eq]
  unfold headerLen optionBytes
  simp only [List.length_append, flatMap_address_length]
  cases r.destinationC <;> cases r.ctrl2 <;> simp [count] <;> omega

theorem serializeFrame_length (r : RawFrame) :
    (serializeFrame r).length = r.headerBytes.length + 2 + (r.data.getD []).length +
      2 * count r.crcData.isSome + 4 := by
  rw [serializeFrame_eq]
  unfold optionBytes
  simp only [List.length_append]
  cases r.crcData <;> simp [count] <;> omega

namespace Machine

/-- A read that is all there splits what stands at its offset (20_memory.md R52). -/
theorem memRead_eq_ok_iff_drop {span : List Byte} {p n : Nat} {v : List Byte} (hn : 0 < n) :
    memRead span p n = .ok v ↔ v.length = n ∧ span.drop p = v ++ span.drop (p + n) := by
  constructor
  · intro h
    obtain ⟨h1, h2⟩ := memRead_eq_ok.1 h
    refine ⟨memRead_length h, ?_⟩
    rw [h2, ← List.drop_drop, List.take_append_drop]
  · rintro ⟨h1, h2⟩
    have h3 := congrArg List.length h2
    simp only [List.length_append, List.length_drop] at h3
    exact memRead_eq_ok.2 ⟨by omega, by rw [h2, ← h1, List.take_left]⟩

theorem readBytes4_eq_ok_iff_drop {span : List Byte} {p : Nat} {v : Bytes4} :
    readBytes4 span p = .ok v ↔ span.drop p = v.toList ++ span.drop (p + 4) := by
  rw [readBytes4, map_eq_ok]
  constructor
  · rintro ⟨l, h, rfl⟩
    obtain ⟨h1, h2⟩ := (memRead_eq_ok_iff_drop (by omega)).1 h
    rw [Bytes4.toList_ofList h1, h2]
  · intro h
    exact ⟨v.toList, (memRead_eq_ok_iff_drop (by omega)).2 ⟨rfl, h⟩, rfl⟩

theorem readBytes2_eq_ok_iff_drop {span : List Byte} {p : Nat} {v : Bytes2} :
    readBytes2 span p = .ok v ↔ span.drop p = v.toList ++ span.drop (p + 2) := by
  rw [readBytes2, map_eq_ok]
  constructor
  · rintro ⟨l, h, rfl⟩
    obtain ⟨h1, h2⟩ := (memRead_eq_ok_iff_drop (by omega)).1 h
    rw [Bytes2.toList_ofList h1, h2]
  · intro h
    exact ⟨v.toList, (memRead_eq_ok_iff_drop (by omega)).2 ⟨rfl, h⟩, rfl⟩

theorem readAddress_eq_ok_iff_drop {span : List Byte} {p : Nat} {v : Address} :
    readAddress span p = .ok v ↔ span.drop p = v.toList ++ span.drop (p + 6) := by
  rw [readAddress, map_eq_ok]
  constructor
  · rintro ⟨l, h, rfl⟩
    obtain ⟨h1, h2⟩ := (memRead_eq_ok_iff_drop (by omega)).1 h
    rw [Address.toList_ofList h1, h2]
  · intro h
    exact ⟨v.toList, (memRead_eq_ok_iff_drop (by omega)).2 ⟨rfl, h⟩, rfl⟩

theorem readAddresses_eq_ok_iff_drop {span : List Byte} {p count : Nat} {l : List Address} :
    readAddresses span p count = .ok l ↔
      l.length = count ∧ span.drop p = l.flatMap Address.toList ++ span.drop (p + 6 * count) := by
  induction count generalizing p l with
  | zero =>
    constructor
    · intro h; cases h; simp
    · rintro ⟨h, -⟩
      cases List.eq_nil_of_length_eq_zero h
      rfl
  | succ n ih =>
    simp only [readAddresses, bind_eq_ok, readAddress_eq_ok_iff_drop, ih]
    constructor
    · rintro ⟨a, h1, rest, ⟨h2, h3⟩, h4⟩
      cases h4
      refine ⟨by simp [h2], ?_⟩
      rw [h1, h3, List.flatMap_cons, List.append_assoc, show p + 6 * (n + 1) = p + 6 + 6 * n by omega]
    · rintro ⟨h1, h2⟩
      match l, h1 with
      | a :: rest, h1 =>
        rw [List.flatMap_cons, List.append_assoc,
          show p + 6 * (n + 1) = p + 6 + 6 * n by omega] at h2
        have h3 : span.drop (p + 6) = rest.flatMap Address.toList ++ span.drop (p + 6 + 6 * n) := by
          rw [← List.drop_drop, h2]
          rfl
        exact ⟨a, by rw [h2, ← h3], rest, ⟨by simpa using h1, h3⟩, rfl⟩

/-- A section that is there exactly when `present` holds splits what stands at its offset. -/
theorem readOptional_eq_ok_iff_drop {α : Type} {span : List Byte} {present : Bool}
    {read : Except ErrorKind α} {f : α → List Byte} {p n : Nat} {v : Option α}
    (h : ∀ a, read = .ok a ↔ span.drop p = f a ++ span.drop (p + n)) :
    readOptional present read = .ok v ↔
      v.isSome = present ∧ span.drop p = optionBytes f v ++ span.drop (p + n * count present) := by
  rw [readOptional_eq_ok]
  cases present <;> cases v <;> simp [optionBytes, count, h]

/-- The data section is read exactly when it is not empty (45_frame_decoder.md R230). -/
theorem readData_eq_ok_iff_drop {span : List Byte} {p u : Nat} {v : Option (List Byte)} :
    readOptional (decide (0 < u)) (memRead span p (8 * u)) = .ok v ↔
      v.map List.length = (if 0 < u then some (8 * u) else none) ∧
        span.drop p = v.getD [] ++ span.drop (p + 8 * u) := by
  rw [readOptional_eq_ok]
  by_cases hu : 0 < u
  · have := @memRead_eq_ok_iff_drop span p (8 * u)
    cases v <;> simp [hu, this]
  · have : u = 0 := by omega
    subst this
    cases v <;> simp

end Machine

theorem drop_of_drop {l v t : List Byte} {p k : Nat} (h : l.drop p = v ++ t) (hv : v.length = k) :
    l.drop (p + k) = t := by
  rw [← List.drop_drop, h, ← hv, List.drop_left]

theorem optionBytes_length {α : Type} {f : α → List Byte} {k : Nat} (hf : ∀ a, (f a).length = k)
    (v : Option α) : (optionBytes f v).length = k * count v.isSome := by
  cases v <;> simp [optionBytes, count, hf]

/-- DECODE answers a frame exactly when the span begins with the bytes of a well-formed one
(10_state.md R31; 45_frame_decoder.md R222 to R232), and the frame is that one. -/
theorem decodeFrame_eq_ok_iff {input : List Byte} {key : Bytes16} {netid : Bytes4} {r : RawFrame}
    {n : Nat} :
    decodeFrame input key netid = .ok (r, n) ↔
      r.WellFormed netid key ∧ n = (serializeFrame r).length ∧
        input = serializeFrame r ++ input.drop n := by
  rw [decodeFrame_eq_ok, readOptional_eq_ok_iff_drop (fun _ => readAddress_eq_ok_iff_drop),
    readOptional_eq_ok_iff_drop (fun _ => readBytes4_eq_ok_iff_drop)]
  simp only [readBytes4_eq_ok_iff_drop, readAddress_eq_ok_iff_drop, readAddresses_eq_ok_iff_drop,
    readBytes2_eq_ok_iff_drop, forall_eq]
  rw [readOptional_eq_ok_iff_drop (fun _ => readBytes2_eq_ok_iff_drop), readData_eq_ok_iff_drop]
  simp only [headerLen]
  generalize hD : (destinationsField.get r.ctrl).toNat = d
  generalize hF : (fromField.get r.ctrl == 1) = f
  generalize hM : (moreHeaderField.get r.ctrl == 1) = m
  constructor
  · rintro ⟨⟨e0, hid⟩, ⟨e4, har⟩, e8, e12, e18, ⟨hd, e24⟩, ⟨hc, edc⟩, ⟨hm, ec2⟩, ⟨ech, hch⟩,
      ⟨hn, edat⟩, ⟨hcd, ecd⟩, hcrc, eend, hend, rfl⟩
    have hhead : input = r.headerBytes ++ input.drop (24 + 6 * d + 6 * count f + 4 * count m) := by
      rw [RawFrame.headerBytes_eq]
      simp only [List.append_assoc]
      rw [← ec2, ← edc, ← e24, ← e18, ← e12, ← e8, ← e4, ← e0]
      rfl
    have hlen : r.headerBytes.length = 24 + 6 * d + 6 * count f + 4 * count m := by
      rw [RawFrame.headerBytes_length, hd, hc, hm]; rfl
    have hser : input = serializeFrame r ++ input.drop (24 + 6 * d + 6 * count f + 4 * count m + 2 +
        8 * r.wireUnits + 2 * count (decide (0 < r.wireUnits)) + 4) := by
      rw [serializeFrame_eq]
      simp only [List.append_assoc]
      rw [← eend, ← ecd, ← edat, ← ech]
      exact hhead
    have htake : input.take (24 + 6 * d + 6 * count f + 4 * count m) = r.headerBytes := by
      rw [hhead, ← hlen, List.take_left]
    refine ⟨⟨by rw [hd, hD], by rw [hc, hF], by rw [hm, hM], hn, hid, hend, har,
      by rw [hch, htake], ?_⟩, ?_, hser⟩
    · cases hx : r.data with
      | none =>
        rw [hx] at hn
        have : ¬ 0 < r.wireUnits := by intro h; simp [h] at hn
        rw [decide_eq_false this] at hcd
        cases hy : r.crcData with
        | none => rfl
        | some c => rw [hy] at hcd; simp at hcd
      | some x =>
        rw [hx] at hn
        have : 0 < r.wireUnits := by
          by_contra h; simp [h] at hn
        rw [decide_eq_true this] at hcd
        cases hy : r.crcData with
        | none => rw [hy] at hcd; simp at hcd
        | some c => simp [hcrc x c hx hy]
    · rw [serializeFrame_length, hlen, hcd]
      congr 3
      cases hx : r.data with
      | none =>
        rw [hx] at hn
        have : ¬ 0 < r.wireUnits := by intro h; simp [h] at hn
        simp; omega
      | some x =>
        rw [hx] at hn
        have : 0 < r.wireUnits := by
          by_contra h; simp [h] at hn
        simp [this] at hn
        simp [hn]
  · rintro ⟨⟨hd, hc, hm, hn, hid, hend, har, hch, hcd⟩, rfl, hin⟩
    rw [hD] at hd
    rw [hF] at hc
    rw [hM] at hm
    have hdata : (r.data.getD []).length = 8 * r.wireUnits := by
      cases hx : r.data with
      | none => rw [hx] at hn; split at hn <;> simp_all
      | some x => rw [hx] at hn; split at hn <;> simp_all [Config.unit]
    have hcrc : r.crcData.isSome = decide (0 < r.wireUnits) := by
      have h1 := congrArg Option.isSome hcd
      have h2 := congrArg Option.isSome hn
      rw [Option.isSome_map, Option.isSome_map] at h1
      rw [Option.isSome_map] at h2
      rw [h1, h2]
      by_cases hu : 0 < r.wireUnits <;> simp [hu]
    have hlen : r.headerBytes.length = 24 + 6 * d + 6 * count f + 4 * count m := by
      rw [RawFrame.headerBytes_length, hd, hc, hm]; rfl
    have hslen := serializeFrame_length r
    rw [hlen, hdata, hcrc] at hslen
    have hin' := hin
    rw [serializeFrame_eq, RawFrame.headerBytes_eq] at hin'
    simp only [List.append_assoc] at hin'
    have e0 : input.drop 0 = _ := hin'
    have e4 := drop_of_drop e0 (Bytes4.toList_length _)
    have e8 := drop_of_drop e4 (Bytes4.toList_length _)
    have e12 := drop_of_drop e8 (Bytes4.toList_length _)
    have e18 := drop_of_drop e12 (Address.toList_length _)
    have e24 := drop_of_drop e18 (Address.toList_length _)
    have edc := drop_of_drop e24 (flatMap_address_length _)
    have ec2 := drop_of_drop edc (optionBytes_length Address.toList_length _)
    have ech := drop_of_drop ec2 (optionBytes_length Bytes4.toList_length _)
    have edat := drop_of_drop ech (Bytes2.toList_length _)
    have ecd := drop_of_drop edat hdata
    have eend := drop_of_drop ecd (optionBytes_length Bytes2.toList_length _)
    have eout := drop_of_drop eend (Bytes4.toList_length _)
    simp only [hd, hc, hm, hcrc, Nat.zero_add, Nat.reduceAdd] at e4 e8 e12 e18 e24 edc ec2 ech edat ecd eend eout
    refine ⟨⟨by rw [e4]; exact e0, hid⟩, ⟨by rw [e8]; exact e4, har⟩, by rw [e12]; exact e8,
      by rw [e18]; exact e12, by rw [e24]; exact e18, ⟨hd, by rw [edc]; exact e24⟩,
      ⟨hc, by rw [ec2]; exact edc⟩, ⟨hm, by rw [ech]; exact ec2⟩, ⟨by rw [edat]; exact ech, ?_⟩,
      ⟨hn, by rw [ecd]; exact edat⟩, ⟨hcrc, by rw [eend]; exact ecd⟩, ?_, by rw [eout]; exact eend,
      hend, hslen⟩
    · rw [hch]
      congr 1
      rw [← hlen]
      conv => rhs; rw [hin, serializeFrame_eq, List.append_assoc, List.take_left]
    · intro x c hx hc
      rw [hx, hc] at hcd
      simpa using hcd

end Sys2Proof
end

