-- ==== Sys2Proof/Laws/Logical.lean ====
section
/-! SUPPORT. What PACK, UNPACK and ENCODE can do, said once each. -/

namespace Sys2Proof

theorem isZeroKey_iff {key : Bytes16} : isZeroKey key = true ↔ key = Config.zeroKey := by
  simp [isZeroKey]

/-- Encoder step 5 (46_frame_encoder.md R269). -/
theorem encodeDestinationC_eq_ok {c : LogicalChunk} {v : Option Address} :
    encodeDestinationC c = .ok v ↔
      (c.ctrl.fromRelay = 1 ∧ v.isSome = true ∧ v = c.destinationC) ∨
      (c.ctrl.fromRelay ≠ 1 ∧ v = none) := by
  unfold encodeDestinationC
  split
  · next h =>
    rw [beq_iff_eq] at h
    cases hd : c.destinationC with
    | none =>
      constructor
      · intro h'; cases h'
      · rintro (⟨-, h1, rfl⟩ | ⟨h1, -⟩)
        · cases h1
        · exact absurd h h1
    | some a =>
      constructor
      · intro h'; cases h'; exact .inl ⟨h, rfl, rfl⟩
      · rintro (⟨-, -, rfl⟩ | ⟨h1, -⟩)
        · rfl
        · exact absurd h h1
  · next h =>
    rw [beq_iff_eq] at h
    constructor
    · intro h'; cases h'; exact .inr ⟨h, rfl⟩
    · rintro (⟨h1, -⟩ | ⟨-, rfl⟩)
      · exact absurd h1 h
      · rfl

theorem encodeDestinationC_eq_error {c : LogicalChunk} {e : ErrorKind} :
    encodeDestinationC c = .error e ↔
      c.ctrl.fromRelay = 1 ∧ c.destinationC = none ∧ e = .nullDestination := by
  unfold encodeDestinationC
  split
  · next h =>
    rw [beq_iff_eq] at h
    cases hd : c.destinationC with
    | none =>
      exact ⟨fun h' => (by cases h'; exact ⟨h, rfl, rfl⟩), fun ⟨_, _, h'⟩ => by rw [h']⟩
    | some a => exact ⟨fun h' => (by cases h'), fun ⟨_, h', _⟩ => (by cases h')⟩
  · next h =>
    rw [beq_iff_eq] at h
    exact ⟨fun h' => (by cases h'), fun ⟨h', _⟩ => absurd h' h⟩

/-- Encoder step 6 (46_frame_encoder.md R270, R271, R272). -/
theorem encodeSecondHeader_eq_ok {c : LogicalChunk} {key : Bytes16} {v : Option (Bytes4 × List Byte)} :
    encodeSecondHeader c key = .ok v ↔
      (c.ctrl.moreHeader = 1 ∧ (sealPayload key c.data).length / 8 ≤ 255 ∧
        v = some (encodeCtrl2 c ((sealPayload key c.data).length / 8), sealPayload key c.data)) ∨
      (c.ctrl.moreHeader ≠ 1 ∧ v = none) := by
  unfold encodeSecondHeader
  split
  · next h =>
    rw [beq_iff_eq] at h
    simp only [bind_eq_ok, check_eq_ok, decide_eq_true_eq]
    constructor
    · rintro ⟨-, h1, h2⟩
      cases h2
      exact .inl ⟨h, h1, rfl⟩
    · rintro (⟨-, h1, rfl⟩ | ⟨h1, -⟩)
      · exact ⟨(), h1, rfl⟩
      · exact absurd h h1
  · next h =>
    rw [beq_iff_eq] at h
    constructor
    · intro h'; cases h'; exact .inr ⟨h, rfl⟩
    · rintro (⟨h1, -⟩ | ⟨-, rfl⟩)
      · exact absurd h1 h
      · rfl

theorem encodeSecondHeader_eq_error {c : LogicalChunk} {key : Bytes16} {e : ErrorKind} :
    encodeSecondHeader c key = .error e ↔
      c.ctrl.moreHeader = 1 ∧ 255 < (sealPayload key c.data).length / 8 ∧ e = .bufferOverflow := by
  unfold encodeSecondHeader
  split
  · next h =>
    rw [beq_iff_eq] at h
    simp only [bind_eq_error, check_eq_error, decide_eq_false_iff_not, Nat.not_le]
    constructor
    · rintro (⟨h1, rfl⟩ | ⟨_, _, h1⟩)
      · exact ⟨h, h1, rfl⟩
      · cases h1
    · rintro ⟨-, h1, rfl⟩
      exact .inl ⟨h1, rfl⟩
  · next h =>
    rw [beq_iff_eq] at h
    exact ⟨fun h' => (by cases h'), fun ⟨h', _⟩ => absurd h' h⟩

/-- The frame PACK gives when it succeeds (47_logical_pack.md R307), but for its header CRC. -/
def packedFrame (c : LogicalChunk) (key : Bytes16) (destinationC : Option Address)
    (second : Option (Bytes4 × List Byte)) : RawFrame where
  id := c.id
  aris := arisEncrypt key c.aris
  ctrl := encodeCtrl1 c
  origin := c.origin
  destinationA := c.destinationA
  destinationsB := c.destinationsB
  destinationC := destinationC
  ctrl2 := second.map (fun v => v.1)
  crcHeader := ⟨0, 0⟩
  data := encodeData second
  crcData := (encodeData second).map (fun ct => unbe16 (crc16 ct))
  frameEnd := c.frameEnd

/-- PACK answers a frame exactly when the three parts of the encoder succeed and the end mark is the id
(47_logical_pack.md R307, R308). -/
theorem packChunk_eq_ok {c : LogicalChunk} {key : Bytes16} {r : RawFrame} :
    packChunk c key = .ok r ↔
      c.destinationsB.length ≤ 255 ∧ c.frameEnd = c.id ∧
      ∃ destinationC second, encodeDestinationC c = .ok destinationC ∧
        encodeSecondHeader c key = .ok second ∧
        r = { packedFrame c key destinationC second with
          crcHeader := unbe16 (crc16 (packedFrame c key destinationC second).headerBytes) } := by
  simp only [packChunk, bind_eq_ok, checkDestinations, check_eq_ok, decide_eq_true_eq, beq_iff_eq]
  constructor
  · rintro ⟨-, h1, dc, h2, second, h3, -, h4, h5⟩
    cases h5
    exact ⟨h1, h4, dc, second, h2, h3, rfl⟩
  · rintro ⟨h1, h4, dc, second, h2, h3, rfl⟩
    exact ⟨(), h1, dc, h2, second, h3, (), h4, rfl⟩

/-- PACK fails with the first of its four checks that does not hold (46_frame_encoder.md R279). -/
theorem packChunk_eq_error {c : LogicalChunk} {key : Bytes16} {e : ErrorKind} :
    packChunk c key = .error e ↔
      (255 < c.destinationsB.length ∧ e = .bufferOverflow) ∨
      (c.destinationsB.length ≤ 255 ∧ encodeDestinationC c = .error e) ∨
      (c.destinationsB.length ≤ 255 ∧ (∃ v, encodeDestinationC c = .ok v) ∧
        encodeSecondHeader c key = .error e) ∨
      (c.destinationsB.length ≤ 255 ∧ (∃ v, encodeDestinationC c = .ok v) ∧
        (∃ v, encodeSecondHeader c key = .ok v) ∧ c.frameEnd ≠ c.id ∧ e = .notSameId) := by
  simp only [packChunk, bind_eq_error, checkDestinations, check_eq_ok, check_eq_error,
    decide_eq_true_eq, decide_eq_false_iff_not, beq_eq_false_iff_ne, Nat.not_le]
  constructor
  · rintro (⟨h, rfl⟩ | ⟨-, h1, h2 | ⟨dc, h2, h3 | ⟨v, h3, ⟨h4, rfl⟩ | ⟨_, _, h5⟩⟩⟩⟩)
    · exact .inl ⟨h, rfl⟩
    · exact .inr (.inl ⟨h1, h2⟩)
    · exact .inr (.inr (.inl ⟨h1, ⟨dc, h2⟩, h3⟩))
    · exact .inr (.inr (.inr ⟨h1, ⟨dc, h2⟩, ⟨v, h3⟩, h4, rfl⟩))
    · cases h5
  · rintro (⟨h, rfl⟩ | ⟨h1, h2⟩ | ⟨h1, ⟨dc, h2⟩, h3⟩ | ⟨h1, ⟨dc, h2⟩, ⟨v, h3⟩, h4, rfl⟩)
    · exact .inl ⟨h, rfl⟩
    · exact .inr ⟨(), h1, .inl h2⟩
    · exact .inr ⟨(), h1, .inr ⟨dc, h2, .inl h3⟩⟩
    · exact .inr ⟨(), h1, .inr ⟨dc, h2, .inr ⟨v, h3, .inl ⟨h4, rfl⟩⟩⟩⟩

/-- UNPACK answers a chunk exactly when control word 2 is there when it must be and the payload opens
(47_logical_pack.md R305). -/
theorem unpackFrame_eq_ok {r : RawFrame} {key : Bytes16} {c : LogicalChunk} :
    unpackFrame r key = .ok c ↔
      ∃ ctrl2 payload, unpackCtrl2Fields (moreHeaderField.get r.ctrl) r.ctrl2 = .ok ctrl2 ∧
        Machine.readOptional (moreHeaderField.get r.ctrl == 1 && r.data.isSome)
          (openPayload key (r.data.getD [])) = .ok payload ∧
        c = { id := r.id, aris := r.aris, ctrl := unpackCtrl1 r.ctrl, origin := r.origin
              destinationA := r.destinationA, destinationsB := r.destinationsB
              destinationC := r.destinationC
              ctrl2 := { ctrl2 with
                dataLength := (payload.map (fun p => logicalDataLength p.length)).getD
                  ctrl2.dataLength }
              crcHeader := r.crcHeader, data := payload.getD []
              crcData := r.crcData.getD ⟨0, 0⟩, frameEnd := r.frameEnd } := by
  simp only [unpackFrame, bind_eq_ok]
  constructor
  · rintro ⟨ctrl2, h1, payload, h2, h3⟩
    cases h3
    exact ⟨ctrl2, payload, h1, h2, by cases payload <;> rfl⟩
  · rintro ⟨ctrl2, payload, h1, h2, rfl⟩
    exact ⟨ctrl2, h1, payload, h2, by cases payload <;> rfl⟩

/-- Control word 2 is wanting exactly when `more_header` is 1 without a `ctrl2` (47_logical_pack.md
R302). -/
theorem unpackCtrl2Fields_eq_error {m : Byte} {ctrl2 : Option Bytes4} {e : ErrorKind} :
    unpackCtrl2Fields m ctrl2 = .error e ↔ m = 1 ∧ ctrl2 = none ∧ e = .generic := by
  unfold unpackCtrl2Fields
  split
  · next h =>
    rw [beq_iff_eq] at h
    cases ctrl2 with
    | none => exact ⟨fun h' => (by cases h'; exact ⟨h, rfl, rfl⟩), fun ⟨_, _, h'⟩ => by rw [h']⟩
    | some w => exact ⟨fun h' => (by cases h'), fun ⟨_, h', _⟩ => (by cases h')⟩
  · next h =>
    rw [beq_iff_eq] at h
    exact ⟨fun h' => (by cases h'), fun ⟨h', _⟩ => absurd h' h⟩

/-- UNPACK fails with `Generic` for want of control word 2, else as the payload does
(47_logical_pack.md R302, R304). -/
theorem unpackFrame_eq_error {r : RawFrame} {key : Bytes16} {e : ErrorKind} :
    unpackFrame r key = .error e ↔
      (moreHeaderField.get r.ctrl = 1 ∧ r.ctrl2 = none ∧ e = .generic) ∨
      (moreHeaderField.get r.ctrl = 1 ∧ r.ctrl2.isSome = true ∧ r.data.isSome = true ∧
        openPayload key (r.data.getD []) = .error e) := by
  have hm : (unpackCtrl1 r.ctrl).moreHeader = moreHeaderField.get r.ctrl := rfl
  simp only [unpackFrame, bind_eq_error, Machine.readOptional_eq_error, Bool.and_eq_true, beq_iff_eq,
    hm, unpackCtrl2Fields_eq_error]
  constructor
  · rintro (h | ⟨v, h1, ⟨⟨h2, h3⟩, h4⟩ | ⟨_, _, h2⟩⟩)
    · exact .inl h
    · refine .inr ⟨h2, ?_, h3, h4⟩
      cases hc : r.ctrl2 with
      | none => rw [unpackCtrl2Fields_eq_error.2 ⟨h2, hc, rfl⟩] at h1; cases h1
      | some w => rfl
    · cases h2
  · rintro (h | ⟨h1, h2, h3, h4⟩)
    · exact .inl h
    · right
      cases hu : unpackCtrl2Fields (moreHeaderField.get r.ctrl) r.ctrl2 with
      | ok v => exact ⟨v, rfl, .inl ⟨⟨h1, h3⟩, h4⟩⟩
      | error e' =>
        obtain ⟨-, h5, -⟩ := unpackCtrl2Fields_eq_error.1 hu
        rw [h5] at h2; cases h2

end Sys2Proof
end

