-- ==== Sys2Proof/Laws/Operands.lean ====
section
/-! SUPPORT. Field extraction and insertion bit by bit (40_bitfield.md R101, R108). -/

namespace Sys2Proof

/-- Bit `i` of an extracted field is bit `shift + i` of the word where the mask has a 1. -/
theorem getField_getLsbD (w : Bytes4) (mask : BitVec 32) (shift i : Nat) :
    (getField w mask shift).getLsbD i =
      (decide (i < 8) && ((be32 w).getLsbD (shift + i) && mask.getLsbD (shift + i))) := by
  simp [getField]

/-- Bit `i` of a word after an insertion: the bit it had, or the data bit shifted there. -/
theorem setField_getLsbD (w : Bytes4) (data : Byte) (shift i : Nat) :
    (be32 (setField w data shift)).getLsbD i =
      (decide (i < 32) &&
        ((be32 w).getLsbD i || (decide (shift ≤ i) && data.getLsbD (i - shift)))) := by
  have h0 : ∀ (b : Byte) j, 8 ≤ j → b.getLsbD j = false := fun b j h => b.getLsbD_of_ge j h
  simp only [setField, be32_unbe32, BitVec.getLsbD_or, BitVec.getLsbD_setWidth,
    BitVec.getLsbD_shiftLeft]
  by_cases h1 : i < 32
  · by_cases h2 : i < shift
    · simp [h1, h2, show i < 40 by omega, show ¬ shift ≤ i by omega]
    · simp [h1, h2, show i < 40 by omega, show shift ≤ i by omega, show i - shift < 40 by omega]
  · simp [h1, (be32 w).getLsbD_of_ge i (by omega)]

@[simp] theorem zeroWord_getLsbD (i : Nat) : (be32 zeroWord).getLsbD i = false := by
  simp [be32, zeroWord]

/-- A value below `2^n` has no bit at `n` or above. -/
theorem getLsbD_false_of_toNat_lt {w n i : Nat} {x : BitVec w} (h : x.toNat < 2 ^ n)
    (hi : n ≤ i) : x.getLsbD i = false := by
  rw [BitVec.getLsbD, Nat.testBit_lt_two_pow]
  exact h.trans_le (Nat.pow_le_pow_right (by omega) hi)

/-- Bit `i` of the word `w` of 46_frame_encoder.md R266: each field's value ORed at its shift. -/
theorem packCtrl1_getLsbD (c : ControlWord1Fields) (i : Nat) :
    (be32 (packCtrl1 c)).getLsbD i =
      (decide (i < 32) &&
        ((decide (28 ≤ i) && c.version.getLsbD (i - 28)) ||
          (decide (20 ≤ i) && c.destinations.getLsbD (i - 20)) ||
          (decide (17 ≤ i) && c.optionBits.getLsbD (i - 17)) ||
          (decide (16 ≤ i) && c.fromRelay.getLsbD (i - 16)) ||
          (decide (10 ≤ i) && c.sequenceNo.getLsbD (i - 10)) ||
          (decide (9 ≤ i) && c.retry.getLsbD (i - 9)) ||
          (decide (8 ≤ i) && c.moreData.getLsbD (i - 8)) ||
          (decide (1 ≤ i) && c.identifier.getLsbD (i - 1)) ||
          c.moreHeader.getLsbD i)) := by
  simp only [packCtrl1, FieldDescriptor.set, setField_getLsbD, zeroWord_getLsbD, versionField,
    destinationsField, optionField, fromField, sequenceField, retryField, moreDataField,
    identifierField, moreHeaderField, Bool.false_or, Nat.zero_le, decide_true, Bool.true_and,
    Nat.sub_zero]
  cases decide (i < 32) <;> simp

/-- Bit `i` of the word `w2` of 46_frame_encoder.md R272. -/
theorem packCtrl2_getLsbD (units feature negAnswer freqSwitch : Byte) (i : Nat) :
    (be32 (packCtrl2 units feature negAnswer freqSwitch)).getLsbD i =
      (decide (i < 32) &&
        ((decide (24 ≤ i) && units.getLsbD (i - 24)) ||
          (decide (23 ≤ i) && feature.getLsbD (i - 23)) ||
          (decide (22 ≤ i) && negAnswer.getLsbD (i - 22)) ||
          (decide (21 ≤ i) && freqSwitch.getLsbD (i - 21)))) := by
  simp only [packCtrl2, FieldDescriptor.set, setField_getLsbD, zeroWord_getLsbD, dataLengthField,
    featureField, negAnswerField, freqSwitchField, Bool.false_or]
  cases decide (i < 32) <;> simp

end Sys2Proof
end

