-- ==== Sys2Proof/Laws/PerInstr.lean ====
section
/-! SUPPORT. Statements made of every instruction, one lemma per constructor. -/

namespace Sys2Proof.Laws.EncodedBytes

/-- The encoding of an instruction has the number of bytes its source holds: the `OP` port one
(30_encoding.md R85), a control word four (R74, R78); and an `OP` code is one of 0x01 to 0x0C. -/
def Statement (i : Instr) : Prop :=
  (encode i).length = (if i.source = .opPort then 1 else 4) ∧
    (i.source = .opPort → ∀ b ∈ encode i, 0x01 ≤ b.toNat ∧ b.toNat ≤ 0x0C)

theorem getField : Statement .getField := by unfold Statement; decide
theorem setField : Statement .setField := by unfold Statement; decide
theorem crc16 : Statement .crc16 := by unfold Statement; decide
theorem aesEncrypt : Statement .aesEncrypt := by unfold Statement; decide
theorem aesDecrypt : Statement .aesDecrypt := by unfold Statement; decide
theorem arisDecrypt : Statement .arisDecrypt := by unfold Statement; decide
theorem arisEncrypt : Statement .arisEncrypt := by unfold Statement; decide
theorem decode : Statement .decode := by unfold Statement; decide
theorem encode : Statement .encode := by unfold Statement; decide
theorem unpack : Statement .unpack := by unfold Statement; decide
theorem pack : Statement .pack := by unfold Statement; decide
theorem serialize : Statement .serialize := by unfold Statement; decide
theorem ctrlWord1 (fields : ControlWord1Fields) : Statement (.ctrlWord1 fields) :=
  ⟨rfl, fun h => nomatch h⟩
theorem ctrlWord2 (fields : ControlWord2Wire) : Statement (.ctrlWord2 fields) :=
  ⟨rfl, fun h => nomatch h⟩

end Sys2Proof.Laws.EncodedBytes
end

