-- ==== Sys2Proof/Laws/State.lean ====
section
/-! SUPPORT. One lemma per field per update of State, true by rfl. -/

namespace Sys2Proof.Machine

variable (s : State) (r : ResultPorts) (e : ErrorKind)

@[simp] theorem State.finish_operands : (s.finish r).operands = s.operands := rfl
@[simp] theorem State.finish_results : (s.finish r).results = r := rfl
@[simp] theorem State.finish_work : (s.finish r).work = DecoderWork.start := rfl
@[simp] theorem State.finish_source : (s.finish r).source = s.source := rfl
@[simp] theorem State.finish_freeIndex : (s.finish r).freeIndex = s.freeIndex + 1 := rfl

@[simp] theorem State.complete_operands : (s.complete r).operands = s.operands := rfl
@[simp] theorem State.complete_status : (s.complete r).results.status = .ok := rfl
@[simp] theorem State.complete_field : (s.complete r).results.field = r.field := rfl
@[simp] theorem State.complete_wordOut : (s.complete r).results.wordOut = r.wordOut := rfl
@[simp] theorem State.complete_crc : (s.complete r).results.crc = r.crc := rfl
@[simp] theorem State.complete_out : (s.complete r).results.out = r.out := rfl
@[simp] theorem State.complete_markerOut :
    (s.complete r).results.markerOut = r.markerOut := rfl
@[simp] theorem State.complete_rawOut : (s.complete r).results.rawOut = r.rawOut := rfl
@[simp] theorem State.complete_consumed : (s.complete r).results.consumed = r.consumed := rfl
@[simp] theorem State.complete_chunkOut : (s.complete r).results.chunkOut = r.chunkOut := rfl
@[simp] theorem State.complete_work : (s.complete r).work = DecoderWork.start := rfl
@[simp] theorem State.complete_source : (s.complete r).source = s.source := rfl
@[simp] theorem State.complete_freeIndex : (s.complete r).freeIndex = s.freeIndex + 1 := rfl

@[simp] theorem State.raise_operands : (s.raise e).operands = s.operands := rfl
@[simp] theorem State.raise_status : (s.raise e).results.status = .error e := rfl
@[simp] theorem State.raise_work : (s.raise e).work = DecoderWork.start := rfl
@[simp] theorem State.raise_source : (s.raise e).source = s.source := rfl
@[simp] theorem State.raise_freeIndex : (s.raise e).freeIndex = s.freeIndex + 1 := rfl

@[simp] theorem State.conclude_ok {α : Type} (v : α) (drive : ResultPorts → α → ResultPorts) :
    s.conclude (.ok v) drive = s.complete (drive s.undriven v) := rfl
@[simp] theorem State.conclude_error {α : Type} (drive : ResultPorts → α → ResultPorts) :
    s.conclude (.error e) drive = s.raise e := rfl

variable {α : Type} (res : Except ErrorKind α) (drive : ResultPorts → α → ResultPorts)

@[simp] theorem State.conclude_operands : (s.conclude res drive).operands = s.operands := by
  cases res <;> rfl
@[simp] theorem State.conclude_work : (s.conclude res drive).work = DecoderWork.start := by
  cases res <;> rfl
@[simp] theorem State.conclude_source : (s.conclude res drive).source = s.source := by
  cases res <;> rfl
@[simp] theorem State.conclude_freeIndex :
    (s.conclude res drive).freeIndex = s.freeIndex + 1 := by
  cases res <;> rfl

/-- All that the end of an operation can be: `Ok` with the ports the operation drives, or an error
with `STATUS` alone (60_exceptions.md R345). -/
theorem State.conclude_cases :
    (∃ v, res = .ok v ∧ s.conclude res drive = s.complete (drive s.undriven v)) ∨
    (∃ kind, res = .error kind ∧ s.conclude res drive = s.raise kind) := by
  cases res with
  | ok v => exact .inl ⟨v, rfl, rfl⟩
  | error kind => exact .inr ⟨kind, rfl, rfl⟩

/-- The status an operation ends with is `Ok` exactly when it has a result. -/
theorem State.conclude_status_ok_iff :
    (s.conclude res drive).results.status = .ok ↔ ∃ v, res = .ok v := by
  cases res <;> simp

/-- The status an operation ends with is the error it raised. -/
theorem State.conclude_status_error_iff (kind : ErrorKind) :
    (s.conclude res drive).results.status = .error kind ↔ res = .error kind := by
  cases res <;> simp

@[simp] theorem DecoderWork.takeCtrl1_cursor (w : DecoderWork) (c : ControlWord1Fields) :
    (w.takeCtrl1 c).cursor = w.cursor + 4 := rfl
@[simp] theorem DecoderWork.takeCtrl1_destinations (w : DecoderWork) (c : ControlWord1Fields) :
    (w.takeCtrl1 c).destinations = c.destinations := rfl
@[simp] theorem DecoderWork.takeCtrl1_fromRelay (w : DecoderWork) (c : ControlWord1Fields) :
    (w.takeCtrl1 c).fromRelay = c.fromRelay := rfl
@[simp] theorem DecoderWork.takeCtrl1_moreHeader (w : DecoderWork) (c : ControlWord1Fields) :
    (w.takeCtrl1 c).moreHeader = c.moreHeader := rfl
@[simp] theorem DecoderWork.takeCtrl1_dataUnits (w : DecoderWork) (c : ControlWord1Fields) :
    (w.takeCtrl1 c).dataUnits = w.dataUnits := rfl
@[simp] theorem DecoderWork.takeCtrl2_cursor (w : DecoderWork) (v : ControlWord2Wire) :
    (w.takeCtrl2 v).cursor = w.cursor + 4 := rfl
@[simp] theorem DecoderWork.takeCtrl2_destinations (w : DecoderWork) (v : ControlWord2Wire) :
    (w.takeCtrl2 v).destinations = w.destinations := rfl
@[simp] theorem DecoderWork.takeCtrl2_fromRelay (w : DecoderWork) (v : ControlWord2Wire) :
    (w.takeCtrl2 v).fromRelay = w.fromRelay := rfl
@[simp] theorem DecoderWork.takeCtrl2_moreHeader (w : DecoderWork) (v : ControlWord2Wire) :
    (w.takeCtrl2 v).moreHeader = w.moreHeader := rfl
@[simp] theorem DecoderWork.takeCtrl2_dataUnits (w : DecoderWork) (v : ControlWord2Wire) :
    (w.takeCtrl2 v).dataUnits = v.dataUnits := rfl

end Sys2Proof.Machine
end

