-- ==== Sys2Proof/Tests/Slice0.lean ====
section
/-! SUPPORT. Tests: the encodings written out from the spec, vectors of 95_test_vectors.md (each
theorem names its vector), and one witness per obligation that has hypotheses. -/

namespace Sys2Proof.Tests

open Sys2Proof.Machine

-- ==== fixtures: the values of 95_test_vectors.md ====

def nid : Bytes4 := ⟨0x01, 0x02, 0x03, 0x04⟩
def keyZ : Bytes16 := Config.zeroKey
def keyK : Bytes16 := ⟨⟨0, 1, 2, 3⟩, ⟨4, 5, 6, 7⟩, ⟨8, 9, 10, 11⟩, ⟨12, 13, 14, 15⟩⟩
def keyK1 : Bytes16 := { keyZ with c0 := ⟨1, 0, 0, 0⟩ }
def keyKW : Bytes16 := { keyK with c0 := ⟨0xFF, 1, 2, 3⟩ }
def addrO : Address := ⟨0xA1, 0xA2, 0xA3, 0xA4, 0xA5, 0xA6⟩
def addrA : Address := ⟨0xB1, 0xB2, 0xB3, 0xB4, 0xB5, 0xB6⟩
def addrC : Address := ⟨0xC1, 0xC2, 0xC3, 0xC4, 0xC5, 0xC6⟩
def addrD : Address := ⟨0xD1, 0xD2, 0xD3, 0xD4, 0xD5, 0xD6⟩
def addrE : Address := ⟨0xE1, 0xE2, 0xE3, 0xE4, 0xE5, 0xE6⟩
def addrF : Address := ⟨0xF1, 0xF2, 0xF3, 0xF4, 0xF5, 0xF6⟩

/-- Bytes 12 to 23 of every reference frame. -/
def addresses : List Byte :=
  [0xA1, 0xA2, 0xA3, 0xA4, 0xA5, 0xA6, 0xB1, 0xB2, 0xB3, 0xB4, 0xB5, 0xB6]

/-- Bytes 24 to 35 of frames B and C. -/
def addressesB : List Byte :=
  [0xC1, 0xC2, 0xC3, 0xC4, 0xC5, 0xC6, 0xD1, 0xD2, 0xD3, 0xD4, 0xD5, 0xD6]

/-- The data section of frame B, which is also the result of V-AES-2. -/
def cipherB : List Byte :=
  [0x5D, 0x87, 0x49, 0xE2, 0xAF, 0x75, 0x31, 0xB2, 0xBF, 0x66, 0x61, 0xE9, 0xE5, 0xDA, 0xF0, 0x12]

/-- The data section of frame C. -/
def dataC : List Byte := [0x11, 0x22, 0x33, 0x44, 0x55, 0x66, 0x77, 0x88]

/-- Frame A (section 2.6). -/
def frameA : List Byte :=
  [0x01, 0x02, 0x03, 0x04, 0x41, 0x52, 0x49, 0x53, 0x10, 0x00, 0x00, 0x00] ++ addresses ++
    [0x24, 0x17, 0x01, 0x02, 0x03, 0x04]

/-- Frame B (section 2.6). -/
def frameB : List Byte :=
  [0x01, 0x02, 0x03, 0x04, 0x50, 0x61, 0x58, 0x62, 0x10, 0x2B, 0x86, 0xC9] ++ addresses ++
    addressesB ++ [0xE1, 0xE2, 0xE3, 0xE4, 0xE5, 0xE6, 0x02, 0xA0, 0x00, 0x00, 0x99, 0x84] ++
    cipherB ++ [0xCB, 0xE2, 0x01, 0x02, 0x03, 0x04]

/-- Frame C (section 2.6). -/
def frameC : List Byte :=
  [0x01, 0x02, 0x03, 0x04, 0x41, 0x52, 0x49, 0x53, 0x20, 0x30, 0x04, 0x0F] ++ addresses ++
    addressesB ++ [0xF1, 0xF2, 0xF3, 0xF4, 0xF5, 0xF6, 0x01, 0x00, 0x00, 0x00, 0x31, 0xB7] ++
    dataC ++ [0x5D, 0xB5, 0x01, 0x02, 0x03, 0x04]

/-- The RawFrame of frame B. -/
def rawB : RawFrame where
  id := nid
  aris := ⟨0x50, 0x61, 0x58, 0x62⟩
  ctrl := ⟨0x10, 0x2B, 0x86, 0xC9⟩
  origin := addrO
  destinationA := addrA
  destinationsB := [addrC, addrD]
  destinationC := some addrE
  ctrl2 := some ⟨0x02, 0xA0, 0x00, 0x00⟩
  crcHeader := ⟨0x99, 0x84⟩
  data := some cipherB
  crcData := some ⟨0xCB, 0xE2⟩
  frameEnd := nid

/-- The RawFrame of frame C. -/
def rawC : RawFrame where
  id := nid
  aris := Config.arisLiteral
  ctrl := ⟨0x20, 0x30, 0x04, 0x0F⟩
  origin := addrO
  destinationA := addrA
  destinationsB := [addrC, addrD, addrF]
  destinationC := none
  ctrl2 := some ⟨0x01, 0x00, 0x00, 0x00⟩
  crcHeader := ⟨0x31, 0xB7⟩
  data := some dataC
  crcData := some ⟨0x5D, 0xB5⟩
  frameEnd := nid

/-- The RawFrame of frame A. -/
def rawA : RawFrame where
  id := nid
  aris := Config.arisLiteral
  ctrl := ⟨0x10, 0x00, 0x00, 0x00⟩
  origin := addrO
  destinationA := addrA
  destinationsB := []
  destinationC := none
  ctrl2 := none
  crcHeader := ⟨0x24, 0x17⟩
  data := none
  crcData := none
  frameEnd := nid

/-- The chunk of frame A. -/
def chunkA : LogicalChunk :=
  { zeroChunk with
    id := nid, aris := Config.arisLiteral, ctrl := ⟨1, 0, 0, 0, 0, 0, 0, 0, 0⟩, origin := addrO
    destinationA := addrA, frameEnd := nid }

/-- The chunk of frame B. -/
def chunkB : LogicalChunk :=
  { chunkA with
    ctrl := ⟨1, 2, 5, 1, 33, 1, 0, 100, 1⟩, destinationsB := [addrC, addrD]
    destinationC := some addrE, ctrl2 := ⟨5, 1, 0, 1⟩, data := [0x68, 0x65, 0x6C, 0x6C, 0x6F] }

/-- The chunk of frame C. -/
def chunkC : LogicalChunk :=
  { chunkA with
    ctrl := ⟨2, 3, 0, 0, 1, 0, 0, 7, 1⟩, destinationsB := [addrC, addrD, addrF]
    ctrl2 := ⟨8, 0, 0, 0⟩, data := dataC }

/-- A chunk with a second header and the longest payload, `n` zero bytes. -/
def chunkLong (n : Nat) : LogicalChunk :=
  { chunkA with
    ctrl := ⟨1, 0, 0, 0, 0, 0, 0, 0, 1⟩, ctrl2 := ⟨BitVec.ofNat 16 n, 0, 0, 0⟩
    data := List.replicate n 0 }

/-- The reset ports with a span, a key and the network id of the vectors. -/
def portsIn (input : List Byte) (key : Bytes16) : OperandPorts :=
  { OperandPorts.reset with input := input, key := key, netid := nid }

def portsWord (w : Bytes4) (mask : BitVec 32) (shift : Byte) (data : Byte) : OperandPorts :=
  { OperandPorts.reset with word := w, wordPresent := true, mask := mask, shift := shift, data8 := data }

def portsMarker (marker : Bytes4) (last : Byte) : OperandPorts :=
  { OperandPorts.reset with marker := marker, key := { keyZ with c3 := ⟨0, 0, 0, last⟩ } }

def portsChunk (c : LogicalChunk) (key : Bytes16) : OperandPorts :=
  { OperandPorts.reset with chunkIn := c, key := key }

def portsRaw (r : RawFrame) (key : Bytes16) : OperandPorts :=
  { OperandPorts.reset with rawIn := r, key := key }

/-- The reset state with the operands presented. -/
def present (o : OperandPorts) : State := { State.reset with operands := o }

/-- The state after an instruction (the state itself when there is no next state). -/
def after (i : Instr) (s : State) : State :=
  match exec i s with
  | .next t => t
  | .fault _ => s
  | .refused _ => s

/-- The result ports and the status after an instruction. -/
def run (i : Instr) (o : OperandPorts) : ResultPorts := (after i (present o)).results

-- ==== well-formedness: one ill-formed term for each check ====

theorem test_refuses_version : (Instr.ctrlWord1 ⟨16, 0, 0, 0, 0, 0, 0, 0, 0⟩).wellFormed = false := by decide
theorem test_refuses_option : (Instr.ctrlWord1 ⟨0, 0, 8, 0, 0, 0, 0, 0, 0⟩).wellFormed = false := by decide
theorem test_refuses_from : (Instr.ctrlWord1 ⟨0, 0, 0, 2, 0, 0, 0, 0, 0⟩).wellFormed = false := by decide
theorem test_refuses_sequence : (Instr.ctrlWord1 ⟨0, 0, 0, 0, 64, 0, 0, 0, 0⟩).wellFormed = false := by decide
theorem test_refuses_retry : (Instr.ctrlWord1 ⟨0, 0, 0, 0, 0, 2, 0, 0, 0⟩).wellFormed = false := by decide
theorem test_refuses_moreData : (Instr.ctrlWord1 ⟨0, 0, 0, 0, 0, 0, 2, 0, 0⟩).wellFormed = false := by decide
theorem test_refuses_identifier : (Instr.ctrlWord1 ⟨0, 0, 0, 0, 0, 0, 0, 128, 0⟩).wellFormed = false := by decide
theorem test_refuses_moreHeader : (Instr.ctrlWord1 ⟨0, 0, 0, 0, 0, 0, 0, 0, 2⟩).wellFormed = false := by decide
theorem test_refuses_feature : (Instr.ctrlWord2 ⟨0, 2, 0, 0, 0⟩).wellFormed = false := by decide
theorem test_refuses_negAnswer : (Instr.ctrlWord2 ⟨0, 0, 2, 0, 0⟩).wellFormed = false := by decide
theorem test_refuses_freqSwitch : (Instr.ctrlWord2 ⟨0, 0, 0, 2, 0⟩).wellFormed = false := by decide
theorem test_accepts_greatest_fields :
    (Instr.ctrlWord1 ⟨15, 255, 7, 1, 63, 1, 1, 127, 1⟩).wellFormed = true ∧
      (Instr.ctrlWord2 ⟨255, 1, 1, 1, 0x1FFFFF⟩).wellFormed = true := by decide

-- ==== decoding: the codes of 30_encoding.md R85, and words written out from R74 and R78 ====

theorem test_decode_getField : decodeTableWord 8 0x01 = some .getField := by decide
theorem test_decode_setField : decodeTableWord 8 0x02 = some .setField := by decide
theorem test_decode_crc16 : decodeTableWord 8 0x03 = some .crc16 := by decide
theorem test_decode_aesEncrypt : decodeTableWord 8 0x04 = some .aesEncrypt := by decide
theorem test_decode_aesDecrypt : decodeTableWord 8 0x05 = some .aesDecrypt := by decide
theorem test_decode_arisDecrypt : decodeTableWord 8 0x06 = some .arisDecrypt := by decide
theorem test_decode_arisEncrypt : decodeTableWord 8 0x07 = some .arisEncrypt := by decide
theorem test_decode_decode : decodeTableWord 8 0x08 = some .decode := by decide
theorem test_decode_encode : decodeTableWord 8 0x09 = some .encode := by decide
theorem test_decode_unpack : decodeTableWord 8 0x0A = some .unpack := by decide
theorem test_decode_pack : decodeTableWord 8 0x0B = some .pack := by decide
theorem test_decode_serialize : decodeTableWord 8 0x0C = some .serialize := by decide

/-- V-OP-1, V-OP-2, V-OP-3. -/
theorem test_unassigned_codes : decodeTableWord 8 0x00 = none ∧ decodeTableWord 8 0x0D = none ∧
    decodeTableWord 8 0xFF = none := by decide

/-- V-BF-12: frame B's first control word. -/
theorem test_decode_ctrlWord1 :
    decodeTableWord 32 0x102B86C9 = some (.ctrlWord1 ⟨1, 2, 5, 1, 33, 1, 0, 100, 1⟩) := by decide

/-- V-BF-1 to V-BF-9. -/
theorem test_decode_ctrlWord1_12345678 : decode .ctrlWord1 [0x12, 0x34, 0x56, 0x78] =
    .ok (.ctrlWord1 ⟨1, 0x23, 2, 0, 0x15, 1, 0, 0x3C, 0⟩) := by rfl

/-- V-BF-10, V-BF-11, and the 21 reserved bits of R78. -/
theorem test_decode_ctrlWord2 : decode .ctrlWord2 [0x12, 0x34, 0x56, 0x78] =
    .ok (.ctrlWord2 ⟨0x12, 0, 0, 1, 0x145678⟩) := by rfl

/-- V-BF-21 and V-BF-22: the words the encoder builds. -/
theorem test_encode_words : encode (.ctrlWord1 ⟨1, 2, 5, 1, 33, 1, 0, 100, 1⟩) = [0x10, 0x2B, 0x86, 0xC9] ∧
    encode (.ctrlWord2 ⟨2, 1, 0, 1, 0⟩) = [0x02, 0xA0, 0x00, 0x00] := by decide

-- ==== running from reset ====

/-- An `OP` placed where the step fetches runs as the first instruction. -/
theorem test_first_instruction : step (State.reset.withFetchWord 8 0x09) =
    exec .encode (State.reset.withFetchWord 8 0x09) := by rfl

/-- A control word placed where the step fetches runs as the first instruction. -/
theorem test_first_control_word : step (State.reset.withFetchWord 32 0x102B86C9) =
    exec (.ctrlWord1 ⟨1, 2, 5, 1, 33, 1, 0, 100, 1⟩) (State.reset.withFetchWord 32 0x102B86C9) := by rfl

-- ==== one or two vectors per instruction ====

/-- V-BF-5. -/
theorem test_getField_sequence :
    (run .getField (portsWord ⟨0x12, 0x34, 0x56, 0x78⟩ 0x0000FC00 10 0)).field = 0x15 := by decide
/-- V-BF-14: the result is cut to 8 bits. -/
theorem test_getField_truncates :
    (run .getField (portsWord ⟨0xAB, 0xCD, 0xEF, 0x01⟩ 0xFFFF0000 16 0)).field = 0xCD := by decide
/-- V-BF-23: an OR, not a replacement. -/
theorem test_setField_ors :
    (run .setField (portsWord ⟨0x10, 0, 0, 0⟩ 0 28 2)).wordOut = ⟨0x30, 0, 0, 0⟩ := by decide
/-- V-BF-29: data wider than the field spills. -/
theorem test_setField_spills :
    (run .setField (portsWord ⟨0, 0, 0, 0⟩ 0 17 0xFF)).wordOut = ⟨0x01, 0xFE, 0, 0⟩ := by decide
/-- V-CRC-7. -/
theorem test_crc16_check_string :
    (run .crc16 (portsIn [0x31, 0x32, 0x33, 0x34, 0x35, 0x36, 0x37, 0x38, 0x39] keyZ)).crc = 0x29B1 := by
  decide
/-- V-CRC-5. -/
theorem test_crc16_zero : (run .crc16 (portsIn [0xFF, 0xFF] keyZ)).crc = 0x0000 := by decide
/-- V-BLK-2, from FIPS-197 appendix B. -/
theorem test_aes_block : aesEncBlock
    ⟨⟨0x2B, 0x7E, 0x15, 0x16⟩, ⟨0x28, 0xAE, 0xD2, 0xA6⟩, ⟨0xAB, 0xF7, 0x15, 0x88⟩, ⟨0x09, 0xCF, 0x4F, 0x3C⟩⟩
    ⟨⟨0x32, 0x43, 0xF6, 0xA8⟩, ⟨0x88, 0x5A, 0x30, 0x8D⟩, ⟨0x31, 0x31, 0x98, 0xA2⟩, ⟨0xE0, 0x37, 0x07, 0x34⟩⟩ =
    ⟨⟨0x39, 0x25, 0x84, 0x1D⟩, ⟨0x02, 0xDC, 0x09, 0xFB⟩, ⟨0xDC, 0x11, 0x85, 0x97⟩, ⟨0x19, 0x6A, 0x0B, 0x32⟩⟩ := by
  decide +kernel
/-- V-AES-2. -/
theorem test_aesEncrypt_short :
    (run .aesEncrypt (portsIn [0x68, 0x65, 0x6C, 0x6C, 0x6F] keyK)).out = cipherB := by decide +kernel
/-- V-AES-7: the all-zero key runs AES here. -/
theorem test_aesEncrypt_zero_key : (run .aesEncrypt (portsIn [] keyZ)).out =
    [0x01, 0x43, 0xDB, 0x63, 0xEE, 0x66, 0xB0, 0xCD, 0xFF, 0x9F, 0x69, 0x91, 0x76, 0x80, 0x15, 0x1E] := by
  decide +kernel
/-- V-AES-6 for V-AES-2. -/
theorem test_aesDecrypt_short : (run .aesDecrypt (portsIn cipherB keyK)).out =
    [0x68, 0x65, 0x6C, 0x6C, 0x6F] := by decide +kernel
/-- V-AES-12: the last three bytes are 01 02 03. -/
theorem test_aesDecrypt_bad_padding : (run .aesDecrypt (portsIn
    [0xE8, 0xB1, 0xBB, 0xFE, 0x0A, 0x0B, 0x6F, 0x45, 0x55, 0x07, 0x28, 0xD1, 0x48, 0x42, 0x17, 0xB3]
    keyK)).status = .error .invalidPadding := by decide +kernel
/-- V-ARIS-3: every sum wraps. -/
theorem test_arisEncrypt_wraps :
    (run .arisEncrypt (portsMarker Config.arisLiteral 0xC0)).markerOut = ⟨0x01, 0x12, 0x09, 0x13⟩ := by decide
/-- V-ARIS-6 and V-ARIS-8. -/
theorem test_arisDecrypt : (run .arisDecrypt (portsMarker ⟨0x50, 0x61, 0x58, 0x62⟩ 0x0F)).status = .ok ∧
    (run .arisDecrypt (portsMarker ⟨0x50, 0x61, 0x58, 0x63⟩ 0x0F)).status = .error .notSameAris := by decide
/-- V-DEC-20. -/
theorem test_decode_frame_b : (run .decode (portsIn frameB keyK)).rawOut = rawB ∧
    (run .decode (portsIn frameB keyK)).consumed = 70 := by decide +kernel
/-- V-DEC-9: `from` becomes 1. -/
theorem test_decode_from_flipped :
    (run .decode (portsIn (flipBit frameA 9 0) keyZ)).status = .error .bufferOverflow := by decide +kernel
/-- V-ENC-2. -/
theorem test_encode_frame_b : (run .encode (portsChunk chunkB keyK)).out = frameB := by decide +kernel
/-- V-ENC-12: the order of the errors. -/
theorem test_encode_error_order : (run .encode (portsChunk
    { chunkA with ctrl := { chunkA.ctrl with fromRelay := 1 }, frameEnd := ⟨1, 2, 3, 5⟩ } keyZ)).status =
      .error .nullDestination := by decide
/-- V-UNP-2. -/
theorem test_unpack_frame_b : (run .unpack (portsRaw rawB keyK)).chunkOut =
    { chunkB with
      aris := ⟨0x50, 0x61, 0x58, 0x62⟩, crcHeader := ⟨0x99, 0x84⟩, crcData := ⟨0xCB, 0xE2⟩ } := by
  decide +kernel
/-- V-UNP-6: no `ctrl2` where `more_header` says there is one. -/
theorem test_unpack_generic :
    (run .unpack (portsRaw { rawA with ctrl := ⟨0x10, 0, 0, 1⟩ } keyZ)).status = .error .generic := by decide
/-- V-ENC-2 for PACK. -/
theorem test_pack_frame_b : (run .pack (portsChunk chunkB keyK)).rawOut = rawB := by decide +kernel
/-- V-ENC-26 for PACK: a flag out of range spills into `data_length`. -/
theorem test_pack_spills : (run .pack (portsChunk
    { chunkLong 0 with ctrl2 := ⟨0, 2, 0, 0⟩ } keyZ)).rawOut.ctrl2 = some ⟨1, 0, 0, 0⟩ := by decide +kernel
/-- V-SER-1. -/
theorem test_serialize_frame_b : (run .serialize (portsRaw rawB keyZ)).out = frameB := by decide
/-- The decoder's values after frame B's two control words (R72, R73): 46 and 70 bytes. -/
theorem test_control_words_of_frame_b :
    (after (.ctrlWord2 ⟨2, 1, 0, 1, 0⟩) (after (.ctrlWord1 ⟨1, 2, 5, 1, 33, 1, 0, 100, 1⟩)
      State.reset)).work.headerLength = 46 ∧
    (after (.ctrlWord2 ⟨2, 1, 0, 1, 0⟩) (after (.ctrlWord1 ⟨1, 2, 5, 1, 33, 1, 0, 100, 1⟩)
      State.reset)).work.frameLength = 70 := by decide

end Sys2Proof.Tests
end

