-- ==== Sys2Proof/Tests/Witnesses.lean ====
section
/-! SUPPORT. For each obligation that has hypotheses, a concrete state and operands that meet all of
them; for one with several clauses, a witness for each clause at the boundary of its range. A witness
is named after its obligation. -/

namespace Sys2Proof.Tests

open Sys2Proof.Machine

/-- The state with the operands presented, and a control word selected as the next instruction. -/
def presentWord (src : Source) (input : List Byte) (cursor : Nat) : State :=
  { present (portsIn input keyK) with source := src, work := { DecoderWork.start with cursor := cursor } }

theorem test_StepRunsDecodedInstruction :
    fetchBytes (present { portsIn frameB keyK with op := 0x0C }) = .ok [0x0C] ∧
    decode (present { portsIn frameB keyK with op := 0x0C }).source [0x0C] = .ok .serialize := by
  exact ⟨rfl, rfl⟩

theorem test_StepRunsDecodedInstruction_words :
    (presentWord .ctrlWord1 frameB 8).operands.input =
      frameB.take 8 ++ (Bytes4.mk 0x10 0x2B 0x86 0xC9).toList ++ frameB.drop 12 ∧
    (frameB.take 8).length = (presentWord .ctrlWord1 frameB 8).work.cursor ∧
    (presentWord .ctrlWord2 frameB 42).operands.input =
      frameB.take 42 ++ (Bytes4.mk 0x02 0xA0 0x00 0x00).toList ++ frameB.drop 46 ∧
    (frameB.take 42).length = (presentWord .ctrlWord2 frameB 42).work.cursor := by decide

theorem test_UnassignedOpEndsInvalidArgument :
    (present { portsIn frameB keyK with op := 0x0D }).source = .opPort ∧
      0x0D ≤ (present { portsIn frameB keyK with op := 0x0D }).operands.op ∧
      (present (portsIn frameB keyK)).operands.op = 0x00 := by decide

theorem test_ShortControlWordOverflows :
    (presentWord .ctrlWord1 (frameB.take 11) 8).source = .ctrlWord1 ∧
    (presentWord .ctrlWord1 (frameB.take 11) 8).operands.input.length <
      (presentWord .ctrlWord1 (frameB.take 11) 8).work.cursor + 4 ∧
    (presentWord .ctrlWord2 (frameB.take 45) 42).source = .ctrlWord2 ∧
    (presentWord .ctrlWord2 (frameB.take 45) 42).operands.input.length <
      (presentWord .ctrlWord2 (frameB.take 45) 42).work.cursor + 4 := by decide

theorem test_DecodeOfEncodeIsIdentity :
    (Instr.ctrlWord1 ⟨15, 255, 7, 1, 63, 1, 1, 127, 1⟩).wellFormed = true ∧
      (Instr.ctrlWord2 ⟨255, 1, 1, 1, 0x1FFFFF⟩).wellFormed = true ∧
      Instr.getField.wellFormed = true := by decide

theorem test_StepKeepsEngineInvariant :
    EngineInv (presentWord .ctrlWord1 frameB 8) ∧
    step (presentWord .ctrlWord1 frameB 8) =
      .next (after (.ctrlWord1 ⟨1, 2, 5, 1, 33, 1, 0, 100, 1⟩) (presentWord .ctrlWord1 frameB 8)) :=
  ⟨⟨nofun, .inl rfl, .inl rfl, nofun⟩, rfl⟩

theorem test_StepStopsOnlyOnShiftOutsideDomain :
    step (present { portsWord ⟨1, 2, 3, 4⟩ 0xFF 32 5 with op := 0x01 }) =
      .refused (.shiftOutOfDomain "GET_FIELD") ∧
    step (present { portsWord ⟨1, 2, 3, 4⟩ 0xFF 32 5 with op := 0x02 }) =
      .refused (.shiftOutOfDomain "SET_FIELD") ∧
    step (present { portsWord ⟨1, 2, 3, 4⟩ 0xFF 31 5 with op := 0x02 }) =
      .next (after .setField (present { portsWord ⟨1, 2, 3, 4⟩ 0xFF 31 5 with op := 0x02 })) :=
  ⟨rfl, rfl, rfl⟩

theorem test_StatusesAreThoseListed : isOperation .decode = true ∧
    exec .decode (present (portsIn frameB keyK)) =
      .next (after .decode (present (portsIn frameB keyK))) := ⟨rfl, rfl⟩

theorem test_ResultsDependOnListedOperandsOnly :
    listedOperands .crc16 (portsIn frameB keyK) = listedOperands .crc16 (portsIn frameB keyZ) ∧
    portsIn frameB keyK ≠ portsIn frameB keyZ ∧
    exec .crc16 (present (portsIn frameB keyK)) =
      .next (after .crc16 (present (portsIn frameB keyK))) := ⟨rfl, by decide, rfl⟩

theorem test_EarlierTransactionHasNoEffect :
    isOperation .aesDecrypt = true ∧ isOperation .crc16 = true ∧
    exec .aesDecrypt (present (portsIn frameB keyK)) =
      .next (after .aesDecrypt (present (portsIn frameB keyK))) ∧
    exec .crc16 (present (portsIn frameB keyK)) =
      .next (after .crc16 (present (portsIn frameB keyK))) := ⟨rfl, rfl, rfl, rfl⟩

theorem test_OperationsKeepOperands : isOperation .unpack = true ∧
    exec .unpack (present (portsRaw rawB keyK)) =
      .next (after .unpack (present (portsRaw rawB keyK))) := ⟨rfl, rfl⟩

theorem test_MemReadChecksItsEnd :
    (frameA ++ [] ++ []).length < 27 + 4 ∧ memRead frameA 27 4 = .error .bufferOverflow ∧
      memRead frameA 26 4 = .ok [0x01, 0x02, 0x03, 0x04] := ⟨by decide, rfl, rfl⟩

theorem test_GetFieldMasksThenShifts :
    (present (portsWord ⟨0x80, 0, 0, 0⟩ 0x80000000 31 0)).operands.wordPresent = true ∧
      (present (portsWord ⟨0x80, 0, 0, 0⟩ 0x80000000 31 0)).operands.shift.toNat ≤ 31 := by decide

theorem test_GetFieldOfAbsentWordIsSentinel :
    (present { portsWord ⟨1, 2, 3, 4⟩ 0xFF 255 0 with wordPresent := false }).operands.wordPresent =
      false := by decide

theorem test_SetFieldOrsShiftedData :
    (present (portsWord ⟨0, 0, 0, 0⟩ 0 31 0xFF)).operands.shift.toNat ≤ 31 := by decide

theorem test_ShiftOutsideDomainIsRefused :
    32 ≤ (present (portsWord ⟨0, 0, 0, 0⟩ 0 32 0xFF)).operands.shift.toNat ∧
      (present (portsWord ⟨0, 0, 0, 0⟩ 0 32 0xFF)).operands.wordPresent = true := by decide

theorem test_SetFieldThenGetFieldReadsBack :
    sequenceField ∈ ctrl1Descriptors ++ ctrl2Descriptors ∧
    (portsWord ⟨0xFF, 0xFF, 0x03, 0xFF⟩ 0 10 63).shift.toNat = sequenceField.shift ∧
    (portsWord ⟨0xFF, 0xFF, 0x03, 0xFF⟩ 0 10 63).data8.toNat < 2 ^ sequenceField.width ∧
    be32 (portsWord ⟨0xFF, 0xFF, 0x03, 0xFF⟩ 0 10 63).word &&& sequenceField.mask = 0 ∧
    (portsWord ⟨0xFF, 0xFF, 0xFF, 0xFF⟩ sequenceField.mask 10 0).wordPresent = true ∧
    (portsWord ⟨0xFF, 0xFF, 0xFF, 0xFF⟩ sequenceField.mask 10 0).word =
      (run .setField (portsWord ⟨0xFF, 0xFF, 0x03, 0xFF⟩ 0 10 63)).wordOut := by decide

theorem test_Crc16EqualsBitSerialForm : (present (portsIn [] keyZ)).operands.input = [] := rfl

/-- V-CRC-11. -/
theorem test_Crc16ResidueIsZero :
    exec .crc16 (present (portsIn [0x31, 0x32] keyZ)) =
      .next (after .crc16 (present (portsIn [0x31, 0x32] keyZ))) ∧
    ∃ u : State, u.operands.input = [0x31, 0x32] ++
      (unbe16 (run .crc16 (portsIn [0x31, 0x32] keyZ)).crc).toList :=
  ⟨rfl, present (portsIn _ keyZ), rfl⟩

/-- V-CRC-7 and V-CRC-10: bit 0 of the last byte. -/
theorem test_Crc16DetectsEverySingleBit :
    8 < (present (portsIn [0x31, 0x32, 0x33, 0x34, 0x35, 0x36, 0x37, 0x38, 0x39] keyZ)).operands.input.length ∧
    flipBit [0x31, 0x32, 0x33, 0x34, 0x35, 0x36, 0x37, 0x38, 0x39] 8 0 =
      [0x31, 0x32, 0x33, 0x34, 0x35, 0x36, 0x37, 0x38, 0x38] ∧
    (run .crc16 (portsIn [0x31, 0x32, 0x33, 0x34, 0x35, 0x36, 0x37, 0x38, 0x38] keyZ)).crc = 0x3990 := by
  decide

theorem test_AesEncryptPadsThenEncryptsBlocks : 0 < (portsIn [] keyZ).input.length / 16 + 1 := by decide

theorem test_AesDecryptRejectsBadLength :
    (present (portsIn [] keyK)).operands.input.length = 0 ∧
    (present (portsIn (List.replicate 15 0) keyK)).operands.input.length % 16 ≠ 0 ∧
    (present (portsIn (List.replicate 17 0) keyK)).operands.input.length % 16 ≠ 0 := by decide

/-- The blocks of an encrypted span of one block, in the form of the obligation. -/
def decryptsTo (cipher plain : List Byte) (pad : Nat) : Prop :=
  cipher.length ≠ 0 ∧ cipher.length % 16 = 0 ∧ plain.length = cipher.length ∧
    cipher.length / 16 = 1 ∧
    Bytes16.ofList ((plain.drop 0).take 16) = aesDecBlock keyK (Bytes16.ofList ((cipher.drop 0).take 16)) ∧
    plain.getLast? = some (BitVec.ofNat 8 pad) ∧ pad < 256

/-- V-AES-16: pad 16, the greatest that is valid. -/
theorem test_AesDecryptValidatesPadding_16 : decryptsTo
    [0x95, 0x4F, 0x64, 0xF2, 0xE4, 0xE8, 0x6E, 0x9E, 0xEE, 0x82, 0xD2, 0x02, 0x16, 0x68, 0x48, 0x99]
    (List.replicate 16 16) 16 := by unfold decryptsTo; decide +kernel
/-- V-AES-14: pad 1, the least that is valid. -/
theorem test_AesDecryptValidatesPadding_1 : decryptsTo
    [0x73, 0x46, 0x13, 0x95, 0x95, 0xC0, 0xB4, 0x1E, 0x49, 0x7B, 0xBD, 0xE3, 0x65, 0xF4, 0x2D, 0x0A]
    (List.replicate 15 0 ++ [1]) 1 := by unfold decryptsTo; decide +kernel
/-- V-AES-10: pad 0. -/
theorem test_AesDecryptValidatesPadding_0 : decryptsTo
    [0xC6, 0xA1, 0x3B, 0x37, 0x87, 0x8F, 0x5B, 0x82, 0x6F, 0x4F, 0x81, 0x62, 0xA1, 0xC8, 0xD8, 0x79]
    (List.replicate 16 0) 0 := by unfold decryptsTo; decide +kernel
/-- V-AES-11: pad 17. -/
theorem test_AesDecryptValidatesPadding_17 : decryptsTo
    [0x44, 0x93, 0xAD, 0xA3, 0x30, 0x6C, 0xE1, 0x10, 0xF4, 0x81, 0x57, 0xD8, 0x66, 0x89, 0x59, 0xD7]
    (List.replicate 15 0 ++ [17]) 17 := by unfold decryptsTo; decide +kernel
/-- V-AES-13: pad 16, one byte differing. -/
theorem test_AesDecryptValidatesPadding_differs : decryptsTo
    [0x9B, 0xD1, 0xBC, 0x7C, 0x45, 0x73, 0xC4, 0x70, 0xD5, 0x75, 0xC3, 0x82, 0x47, 0x04, 0x30, 0xC1]
    (0 :: List.replicate 15 16) 16 := by unfold decryptsTo; decide +kernel

theorem test_AesDecryptUndoesAesEncrypt :
    exec .aesEncrypt (present (portsIn [0x68, 0x65, 0x6C, 0x6C, 0x6F] keyK)) =
      .next (after .aesEncrypt (present (portsIn [0x68, 0x65, 0x6C, 0x6C, 0x6F] keyK))) ∧
    (portsIn cipherB keyK).input = (run .aesEncrypt (portsIn [0x68, 0x65, 0x6C, 0x6C, 0x6F] keyK)).out ∧
    exec .aesDecrypt (present (portsIn cipherB keyK)) =
      .next (after .aesDecrypt (present (portsIn cipherB keyK))) ∧
    (run .aesDecrypt (portsIn cipherB keyK)).status = .ok ∧
    (portsIn [0x68, 0x65, 0x6C, 0x6C, 0x6F] keyK).input = (run .aesDecrypt (portsIn cipherB keyK)).out :=
  ⟨rfl, by decide +kernel, rfl, by decide +kernel, by decide +kernel⟩

theorem test_ArisRoundTripNeedsLiteralAndKeyByte :
    exec .arisEncrypt (present (portsMarker ⟨0x41, 0x52, 0x49, 0x53⟩ 0x0F)) =
      .next (after .arisEncrypt (present (portsMarker ⟨0x41, 0x52, 0x49, 0x53⟩ 0x0F))) ∧
    (portsMarker ⟨0x50, 0x61, 0x58, 0x62⟩ 0x0F).marker =
      (run .arisEncrypt (portsMarker ⟨0x41, 0x52, 0x49, 0x53⟩ 0x0F)).markerOut :=
  ⟨rfl, by decide⟩

theorem test_DecodeAcceptsWellFormedFrame :
    rawA.WellFormed (portsIn frameA keyZ).netid (portsIn frameA keyZ).key ∧
    (portsIn frameA keyZ).input = serializeFrame rawA ++ [] ∧
    rawB.WellFormed (portsIn (frameB ++ [0xDE, 0xAD]) keyK).netid
      (portsIn (frameB ++ [0xDE, 0xAD]) keyK).key ∧
    (portsIn (frameB ++ [0xDE, 0xAD]) keyK).input = serializeFrame rawB ++ [0xDE, 0xAD] ∧
    rawC.WellFormed nid keyZ ∧ frameC = serializeFrame rawC := by decide +kernel

theorem test_DecodedFrameIsWellFormed :
    exec .decode (present (portsIn frameB keyK)) =
      .next (after .decode (present (portsIn frameB keyK))) ∧
    (run .decode (portsIn frameB keyK)).status = .ok := ⟨rfl, by decide +kernel⟩

/-- V-DEC-3, V-DEC-11, V-DEC-4, at the lengths where the clauses meet. -/
theorem test_DecodeChecksIdThenMarker :
    (portsIn (frameA.take 3) keyZ).input.length < 4 ∧
    ((portsIn [0xAA, 0xBB, 0xCC, 0xDD] keyZ).input =
        (Bytes4.mk 0xAA 0xBB 0xCC 0xDD).toList ++ [] ∧
      Bytes4.mk 0xAA 0xBB 0xCC 0xDD ≠ (portsIn [0xAA, 0xBB, 0xCC, 0xDD] keyZ).netid) ∧
    ((portsIn (frameA.take 7) keyZ).input =
        (portsIn (frameA.take 7) keyZ).netid.toList ++ [0x41, 0x52, 0x49] ∧
      [0x41#8, 0x52, 0x49].length < 4) ∧
    ((portsIn (frameA.take 8) keyK).input =
        (portsIn (frameA.take 8) keyK).netid.toList ++ (Bytes4.mk 0x41 0x52 0x49 0x53).toList ++ [] ∧
      Bytes4.mk 0x41 0x52 0x49 0x53 ≠ ⟨0x41 + keyK.last, 0x52 + keyK.last, 0x49 + keyK.last,
        0x53 + keyK.last⟩) := by decide

/-- V-DEC-27: one byte short, and nothing at all. -/
theorem test_DecodeOfTruncatedFrameOverflows :
    exec .decode (present (portsIn frameB keyK)) =
      .next (after .decode (present (portsIn frameB keyK))) ∧
    (run .decode (portsIn frameB keyK)).status = .ok ∧
    69 < (run .decode (portsIn frameB keyK)).consumed.toNat ∧
    0 < (run .decode (portsIn frameB keyK)).consumed.toNat :=
  ⟨rfl, by decide +kernel, by decide +kernel, by decide +kernel⟩

/-- Frame B with two bytes after it: the regions end at bytes 4, 8, 48, 66, 70 and 72. -/
theorem test_DecodeReportsSingleBitFlip :
    exec .decode (present (portsIn (frameB ++ [0xDE, 0xAD]) keyK)) =
      .next (after .decode (present (portsIn (frameB ++ [0xDE, 0xAD]) keyK))) ∧
    (run .decode (portsIn (frameB ++ [0xDE, 0xAD]) keyK)).status = .ok ∧
    (run .decode (portsIn (frameB ++ [0xDE, 0xAD]) keyK)).rawOut.headerBytes.length + 2 = 48 ∧
    (run .decode (portsIn (frameB ++ [0xDE, 0xAD]) keyK)).consumed.toNat = 70 ∧
    (frameB ++ [0xDE, 0xAD]).length = 72 :=
  ⟨rfl, by decide +kernel, by decide +kernel, by decide +kernel, by decide +kernel⟩

/-- The status of DECODE of frame B, two bytes after it, with one bit flipped. -/
def flipped (p k : Nat) : Status :=
  (run .decode (portsIn (flipBit (frameB ++ [0xDE, 0xAD]) p k) keyK)).status

/-- Both ends of every region of the obligation. -/
theorem test_DecodeReportsSingleBitFlip_regions :
    flipped 0 0 = .error .notSameId ∧ flipped 3 7 = .error .notSameId ∧
    flipped 4 0 = .error .notSameAris ∧ flipped 7 7 = .error .notSameAris ∧
    flipped 8 4 = .error .notSameCrcHeader ∧ flipped 9 3 = .error .notSameCrcHeader ∧
    flipped 9 1 = .error .notSameCrcHeader ∧ flipped 11 1 = .error .notSameCrcHeader ∧
    flipped 12 0 = .error .notSameCrcHeader ∧ flipped 47 7 = .error .notSameCrcHeader ∧
    flipped 48 0 = .error .notSameCrcData ∧ flipped 65 7 = .error .notSameCrcData ∧
    flipped 66 0 = .error .notSameEnd ∧ flipped 69 7 = .error .notSameEnd ∧
    flipped 70 0 = .ok ∧ flipped 71 7 = .ok := by decide +kernel

/-- V-DEC-26: another key with the same byte 15. -/
theorem test_DecodeUsesOnlyLastKeyByte :
    (portsIn frameB keyKW).input = (portsIn frameB keyK).input ∧
    (portsIn frameB keyKW).netid = (portsIn frameB keyK).netid ∧
    (portsIn frameB keyKW).key.last = (portsIn frameB keyK).key.last ∧ keyKW ≠ keyK ∧
    exec .decode (present (portsIn frameB keyK)) =
      .next (after .decode (present (portsIn frameB keyK))) :=
  ⟨rfl, rfl, rfl, by decide, rfl⟩

/-- Each branch of PACK's checks: V-ENC-15 and V-ENC-16, V-ENC-11, V-ENC-20, V-ENC-10. -/
theorem test_PackBuildsEachFieldOrFirstError :
    255 < { chunkA with destinationsB := List.replicate 256 addrC }.destinationsB.length ∧
    ¬ 255 < { chunkA with destinationsB := List.replicate 255 addrC }.destinationsB.length ∧
    { chunkB with destinationC := none }.ctrl.fromRelay = 1 ∧
    ((chunkLong 2048).ctrl.moreHeader = 1 ∧ 255 < (chunkLong 2048).data.length / 8) ∧
    ¬ 255 < (chunkLong 2040).data.length / 8 ∧
    { chunkA with frameEnd := ⟨1, 2, 3, 5⟩ }.frameEnd ≠ { chunkA with frameEnd := ⟨1, 2, 3, 5⟩ }.id ∧
    chunkB.frameEnd = chunkB.id := by decide +kernel

/-- V-ENC-2, V-ENC-3, and the longest payloads of V-ENC-17 and V-ENC-19. -/
theorem test_EncodeLengthOfWellFormedChunk :
    chunkA.WellFormed keyZ ∧ chunkB.WellFormed keyK ∧ chunkC.WellFormed keyZ ∧
      (chunkLong 2031).WellFormed keyK ∧ (chunkLong 2040).WellFormed keyZ :=
  ⟨by decide, by decide, by decide, by decide +kernel, by decide +kernel⟩

theorem test_DecodeUndoesEncode :
    (portsChunk chunkB keyK).chunkIn.WellFormed (portsChunk chunkB keyK).key ∧
    (portsChunk chunkB keyK).chunkIn.aris = Config.arisLiteral ∧
    (portsIn frameB keyK).key = (portsChunk chunkB keyK).key ∧
    (portsIn frameB keyK).netid = (portsChunk chunkB keyK).chunkIn.id ∧
    (portsIn frameB keyK).input = (run .encode (portsChunk chunkB keyK)).out := by decide +kernel

/-- V-ARIS-5's doubly obfuscated marker: the other clause. -/
theorem test_DecodeUndoesEncode_otherMarker :
    { chunkB with aris := ⟨0x50, 0x61, 0x58, 0x62⟩ }.WellFormed keyK ∧
    { chunkB with aris := ⟨0x50, 0x61, 0x58, 0x62⟩ }.aris ≠ Config.arisLiteral ∧
    { chunkB with aris := ⟨0x50, 0x61, 0x58, 0x62⟩ }.id = nid := by decide +kernel

theorem test_UnpackUndoesPack :
    (portsChunk chunkB keyK).chunkIn.WellFormed (portsChunk chunkB keyK).key ∧
    (portsRaw rawB keyK).key = (portsChunk chunkB keyK).key ∧
    (portsRaw rawB keyK).rawIn = (run .pack (portsChunk chunkB keyK)).rawOut := by decide +kernel

theorem test_ReceiveUndoesSend : chunkB.WellFormed keyK ∧ chunkB.aris = Config.arisLiteral ∧
    chunkC.WellFormed keyZ ∧ chunkC.aris = Config.arisLiteral :=
  ⟨by decide, rfl, by decide, rfl⟩

/-- V-UNP-11. -/
theorem test_PackUndoesUnpack :
    (portsRaw rawC keyZ).rawIn.WellFormed nid (portsRaw rawC keyZ).key ∧
    (portsRaw rawC keyZ).key.last = 0 ∧
    (∀ w, (portsRaw rawC keyZ).rawIn.ctrl2 = some w → (be32 w).extractLsb' 0 21 = 0) ∧
    ((portsRaw rawC keyZ).rawIn.ctrl2.isSome = true →
      (portsRaw rawC keyZ).rawIn.data.isSome = true ∨ (portsRaw rawC keyZ).key = Config.zeroKey) ∧
    exec .unpack (present (portsRaw rawC keyZ)) =
      .next (after .unpack (present (portsRaw rawC keyZ))) ∧
    (run .unpack (portsRaw rawC keyZ)).status = .ok ∧
    ∃ u : State, u.operands.key = keyZ ∧
      u.operands.chunkIn = (run .unpack (portsRaw rawC keyZ)).chunkOut :=
  ⟨by decide +kernel, rfl, fun w h => by cases h; decide, fun _ => .inl rfl, rfl, by decide +kernel,
    present (portsChunk _ keyZ), rfl, rfl⟩

/-- The frame with a `ctrl2` and no data (V-ENC-7's), under a key that is not null: PACK of what UNPACK
gives has 16 bytes of data, so R314's last sentence needs the condition the obligation adds
(notes/assumptions/11.md). -/
def rawEmpty : RawFrame := (run .pack (portsChunk (chunkLong 0) keyZ)).rawOut

theorem test_PackUndoesUnpack_corner :
    rawEmpty.WellFormed nid keyK1 ∧ keyK1.last = 0 ∧ rawEmpty.ctrl2 = some ⟨0, 0, 0, 0⟩ ∧
    (run .unpack (portsRaw rawEmpty keyK1)).status = .ok ∧
    ((run .pack (portsChunk (run .unpack (portsRaw rawEmpty keyK1)).chunkOut keyK1)).rawOut.data.map
      List.length) = some 16 ∧ rawEmpty.data = none := by decide +kernel

/-- Each branch of UNPACK: V-UNP-6, V-UNP-2, V-UNP-1, and V-UNP-4. -/
theorem test_UnpackCopiesAndOpensOrFirstError :
    (moreHeaderField.get { rawA with ctrl := ⟨0x10, 0, 0, 1⟩ }.ctrl = 1 ∧
      { rawA with ctrl := ⟨0x10, 0, 0, 1⟩ }.ctrl2 = none) ∧
    (moreHeaderField.get rawB.ctrl = 1 ∧ rawB.data.isSome = true) ∧
    moreHeaderField.get rawA.ctrl ≠ 1 ∧
    (run .unpack (portsRaw rawB keyKW)).status = .error .invalidPadding := by decide +kernel

/-- Frame A, without the second control word, and frame B, with it. -/
theorem test_ControlWordsFixFrameLength :
    exec .decode (present (portsIn frameA keyZ)) =
      .next (after .decode (present (portsIn frameA keyZ))) ∧
    (run .decode (portsIn frameA keyZ)).status = .ok ∧
    (run .decode (portsIn frameA keyZ)).rawOut.ctrl2 = none ∧
    exec .decode (present (portsIn frameB keyK)) =
      .next (after .decode (present (portsIn frameB keyK))) ∧
    (run .decode (portsIn frameB keyK)).status = .ok ∧
    (run .decode (portsIn frameB keyK)).rawOut.ctrl2 = some ⟨0x02, 0xA0, 0, 0⟩ ∧
    (∀ c s, exec (.ctrlWord1 c) s = .next (after (.ctrlWord1 c) s)) ∧
    (∀ w s, exec (.ctrlWord2 w) s = .next (after (.ctrlWord2 w) s)) :=
  ⟨rfl, by decide +kernel, by decide +kernel, rfl, by decide +kernel, by decide +kernel,
    fun _ _ => rfl, fun _ _ => rfl⟩

end Sys2Proof.Tests
end

section
/-! PROOFS. The statements about byte order (00_scope.md R13). -/

namespace Sys2Proof

/-- Appending a byte below a word is one step of base-256 positional notation. -/
theorem toNat_append_byte {n : Nat} (x : BitVec n) (b : Byte) :
    (x ++ b).toNat = x.toNat * 2 ^ 8 + b.toNat := by
  rw [BitVec.toNat_append, ← Nat.shiftLeft_add_eq_or_of_lt b.isLt, Nat.shiftLeft_eq]

/-- The byte at the lower offset is the upper half (00_scope.md R13). -/
theorem be16_eq_append (v : Bytes2) : be16 v = v.b0 ++ v.b1 := by
  apply BitVec.eq_of_getLsbD_eq
  intro i hi
  simp only [be16_getLsbD, BitVec.getLsbD_append, hi, if_true]

theorem be32_eq_append (v : Bytes4) : be32 v = v.b0 ++ v.b1 ++ v.b2 ++ v.b3 := by
  apply BitVec.eq_of_getLsbD_eq
  intro i hi
  have h16 : i - 8 < 8 ↔ i < 16 := by omega
  have h24 : i - 16 < 8 ↔ i < 24 := by omega
  simp only [be32_getLsbD, BitVec.getLsbD_append, hi, if_true, Nat.sub_sub, h16, h24]

theorem be16_toNat (v : Bytes2) : (be16 v).toNat = v.b0.toNat * 2 ^ 8 + v.b1.toNat := by
  rw [be16_eq_append, toNat_append_byte]

theorem be32_toNat (v : Bytes4) :
    (be32 v).toNat =
      v.b0.toNat * 2 ^ 24 + v.b1.toNat * 2 ^ 16 + v.b2.toNat * 2 ^ 8 + v.b3.toNat := by
  rw [be32_eq_append, toNat_append_byte, toNat_append_byte, toNat_append_byte]
  omega

/-- Settles O17: the weights are the positional values of the appended bytes, and the inverses are
the laws of the byte-order layer. -/
theorem bigEndianPacking : Obligations.BigEndianPacking :=
  ⟨be32_toNat, be16_toNat, unbe32_be32, be32_unbe32, unbe16_be16, be16_unbe16⟩

end Sys2Proof
end

section
/-! PROOFS. The statements about the state at reset (10_state.md R39). -/

namespace Sys2Proof.Machine

/-- R39: the read cursor is 0 at the start of every DECODE. -/
@[simp] theorem DecoderWork.start_cursor : DecoderWork.start.cursor = 0 := rfl

/-- R380: nothing of an earlier frame is retained. -/
@[simp] theorem State.reset_work : State.reset.work = DecoderWork.start := rfl

@[simp] theorem State.reset_source : State.reset.source = .opPort := rfl

/-- The cursor at reset is that of the decoder's starting values. -/
theorem State.reset_cursor : State.reset.work.cursor = 0 :=
  State.reset_work ▸ DecoderWork.start_cursor

/-- Settles O1: each clause is what reset puts into one field. -/
theorem resetRetainsNothing : Obligations.ResetRetainsNothing :=
  ⟨State.reset_work, State.reset_cursor, State.reset_source⟩

end Sys2Proof.Machine
end

section
/-! PROOFS. The statements about reads past the end of a span (20_memory.md R52). -/

namespace Sys2Proof.Machine

/-- Settles O16: the read of a middle part and the failing read are the two laws of `MemRead`. -/
theorem memReadChecksItsEnd : Obligations.MemReadChecksItsEnd := by
  intro a v b p n
  refine ⟨?_, fun h => memRead_eq_error.2 ⟨h, rfl⟩⟩
  rw [List.append_assoc]
  exact memRead_middle a v b

/-- A control word is fetched by one `MemRead` at the cursor (45_frame_decoder.md R221). -/
theorem fetchBytes_of_ctrlWord {s : State} (h : s.source = .ctrlWord1 ∨ s.source = .ctrlWord2) :
    fetchBytes s = memRead s.operands.input s.work.cursor 4 := by
  unfold fetchBytes
  rcases h with h | h <;> rw [h]

/-- An instruction whose bytes cannot be read is not executed (60_exceptions.md R346). -/
theorem step_of_fetchBytes_error {s : State} {kind : ErrorKind}
    (h : fetchBytes s = .error kind) : step s = .next (s.raise kind) := by
  have hfetch : fetch s = .error kind := by rw [fetch, h, error_bind]
  rw [step, hfetch]

/-- The frame of a transaction that ends with an error (20_memory.md R54). -/
theorem State.raise_transactionFrame (s : State) (kind : ErrorKind) :
    TransactionFrame s (s.raise kind) :=
  ⟨s.raise_operands kind, s.raise_source kind, s.raise_work kind⟩

/-- Settles O4: the fetch of the control word is the read that fails. -/
theorem shortControlWordOverflows : Obligations.ShortControlWordOverflows := by
  intro s hsource hshort
  have hfetch : fetchBytes s = .error .bufferOverflow := by
    rw [fetchBytes_of_ctrlWord hsource]
    exact memRead_eq_error.2 ⟨hshort, rfl⟩
  exact ⟨_, step_of_fetchBytes_error hfetch, s.raise_status _, s.raise_transactionFrame _⟩

end Sys2Proof.Machine
end

section
/-! PROOFS. What a span that is cut short can do to DECODE (45_frame_decoder.md R240): each read, and
so the whole operation, overflows or does what it does on the whole span. -/

namespace Sys2Proof.Machine

/-- An operation on a cut span, against the same operation on the whole one: it does the same, or a
byte it reads is missing. -/
def SameOrOverflow {α : Type} (cut whole : Except ErrorKind α) : Prop :=
  cut = whole ∨ cut = .error .bufferOverflow

namespace SameOrOverflow

variable {α β : Type}

theorem refl (x : Except ErrorKind α) : SameOrOverflow x x := .inl rfl

/-- Two parts in a row: the second parts need to be compared only where both first parts have the
same result. -/
theorem bind {cut whole : Except ErrorKind α} {f g : α → Except ErrorKind β}
    (hfirst : SameOrOverflow cut whole)
    (hsecond : ∀ v, cut = .ok v → SameOrOverflow (f v) (g v)) :
    SameOrOverflow (cut >>= f) (whole >>= g) := by
  rcases hfirst with rfl | rfl
  · cases cut with
    | ok v => exact hsecond v rfl
    | error kind => exact refl _
  · exact .inr rfl

theorem map {cut whole : Except ErrorKind α} (h : SameOrOverflow cut whole) (f : α → β) :
    SameOrOverflow (cut.map f) (whole.map f) := by
  rcases h with rfl | rfl
  · exact refl _
  · exact .inr rfl

theorem readOptional {cut whole : Except ErrorKind α} (h : SameOrOverflow cut whole)
    (present : Bool) :
    SameOrOverflow (readOptional present cut) (readOptional present whole) := by
  cases present with
  | true => exact h.map some
  | false => exact refl _

end SameOrOverflow

section
variable (a b : List Byte)

theorem memRead_sameOrOverflow (p n : Nat) :
    SameOrOverflow (memRead a p n) (memRead (a ++ b) p n) := by
  by_cases h : p + n ≤ a.length
  · exact .inl (memRead_append_left h).symm
  · exact .inr (memRead_eq_error.2 ⟨Nat.lt_of_not_le h, rfl⟩)

theorem readBytes2_sameOrOverflow (p : Nat) :
    SameOrOverflow (readBytes2 a p) (readBytes2 (a ++ b) p) :=
  (memRead_sameOrOverflow a b p 2).map Bytes2.ofList

theorem readBytes4_sameOrOverflow (p : Nat) :
    SameOrOverflow (readBytes4 a p) (readBytes4 (a ++ b) p) :=
  (memRead_sameOrOverflow a b p 4).map Bytes4.ofList

theorem readAddress_sameOrOverflow (p : Nat) :
    SameOrOverflow (readAddress a p) (readAddress (a ++ b) p) :=
  (memRead_sameOrOverflow a b p 6).map Address.ofList

theorem readAddresses_sameOrOverflow (p count : Nat) :
    SameOrOverflow (readAddresses a p count) (readAddresses (a ++ b) p count) := by
  induction count generalizing p with
  | zero => exact .refl _
  | succ count ih =>
    exact (readAddress_sameOrOverflow a b p).bind fun _ _ => (ih (p + 6)).bind fun _ _ => .refl _

/-- DECODE of a cut span, for every span and every outcome of the whole one. The header CRC is taken
over a region that the cut span still holds, for the stored CRC behind it has just been read
(45_frame_decoder.md R229). -/
theorem decodeFrame_sameOrOverflow (key : Bytes16) (netid : Bytes4) :
    SameOrOverflow (decodeFrame a key netid) (decodeFrame (a ++ b) key netid) := by
  unfold decodeFrame
  refine (readBytes4_sameOrOverflow a b _).bind fun id _ => ?_
  refine (SameOrOverflow.refl _).bind fun _ _ => ?_
  refine (readBytes4_sameOrOverflow a b _).bind fun aris _ => ?_
  refine (SameOrOverflow.refl _).bind fun _ _ => ?_
  refine (readBytes4_sameOrOverflow a b _).bind fun ctrl _ => ?_
  refine (readAddress_sameOrOverflow a b _).bind fun origin _ => ?_
  refine (readAddress_sameOrOverflow a b _).bind fun destinationA _ => ?_
  refine (readAddresses_sameOrOverflow a b _ _).bind fun destinationsB _ => ?_
  refine ((readAddress_sameOrOverflow a b _).readOptional _).bind fun destinationC _ => ?_
  refine ((readBytes4_sameOrOverflow a b _).readOptional _).bind fun ctrl2 _ => ?_
  refine (readBytes2_sameOrOverflow a b _).bind fun crcHeader hcrc => ?_
  rw [List.take_append_of_le_length (Nat.le_of_add_right_le (readBytes2_eq_ok.1 hcrc).1)]
  refine (SameOrOverflow.refl _).bind fun _ _ => ?_
  refine ((memRead_sameOrOverflow a b _ _).readOptional _).bind fun data _ => ?_
  refine ((readBytes2_sameOrOverflow a b _).readOptional _).bind fun crcData _ => ?_
  refine (SameOrOverflow.refl _).bind fun _ _ => ?_
  exact (readBytes4_sameOrOverflow a b _).bind fun frameEnd _ => .refl _

end

/-- A frame that DECODE answers lies in the span. -/
theorem decodeFrame_consumed_le_length {input : List Byte} {key : Bytes16} {netid : Bytes4}
    {r : RawFrame} {n : Nat} (h : decodeFrame input key netid = .ok (r, n)) :
    n ≤ input.length := by
  obtain ⟨-, hn, hinput⟩ := decodeFrame_eq_ok_iff.1 h
  rw [hinput, hn, List.length_append]
  exact Nat.le_add_right _ _

/-- A span cut before the end of its frame cannot give the frame, so it overflows. -/
theorem decodeFrame_take_of_lt {input : List Byte} {key : Bytes16} {netid : Bytes4}
    {r : RawFrame} {m n : Nat} (h : decodeFrame input key netid = .ok (r, m)) (hn : n < m) :
    decodeFrame (input.take n) key netid = .error .bufferOverflow := by
  have hcut := decodeFrame_sameOrOverflow (input.take n) (input.drop n) key netid
  rw [List.take_append_drop, h] at hcut
  refine hcut.resolve_left fun hsame => ?_
  have hm : m ≤ (input.take n).length := decodeFrame_consumed_le_length hsame
  have htake : (input.take n).length ≤ n := List.length_take_le n input
  omega

/-- What DECODE of a state is, through the frame decoder (45_frame_decoder.md R233). -/
theorem exec_decode (s : State) :
    exec .decode s = .next (s.conclude (decodeFrame s.operands.input s.operands.key s.operands.netid)
      (fun r v => { r with rawOut := v.1, consumed := BitVec.ofNat 16 v.2 })) := rfl

/-- When DECODE ends with `Ok` the frame decoder has answered, and the two result ports hold its
answer, the length cut to the 16 bits of `CONSUMED` (45_frame_decoder.md R232). -/
theorem exec_decode_ok {s t : State} (hexec : exec .decode s = .next t)
    (hok : t.results.status = .ok) :
    ∃ r n, decodeFrame s.operands.input s.operands.key s.operands.netid = .ok (r, n) ∧
      t.results.rawOut = r ∧ t.results.consumed = BitVec.ofNat 16 n := by
  rw [exec_decode] at hexec
  cases hexec
  obtain ⟨⟨r, n⟩, hframe⟩ := (State.conclude_status_ok_iff ..).1 hok
  exact ⟨r, n, hframe, by rw [hframe, State.conclude_ok]; exact ⟨rfl, rfl⟩⟩

/-- Settles O39: `CONSUMED` is at most the length of the frame, so the cut is before its end. -/
theorem decodeOfTruncatedFrameOverflows : Obligations.DecodeOfTruncatedFrameOverflows := by
  intro s t n hexec hok hn
  obtain ⟨r, m, hframe, -, hconsumed⟩ := exec_decode_ok hexec hok
  have hm : n < m := by
    rw [hconsumed, BitVec.toNat_ofNat] at hn
    exact hn.trans_le (Nat.mod_le _ _)
  exact ⟨_, exec_decode _,
    (State.conclude_status_error_iff ..).2 (decodeFrame_take_of_lt hframe hm)⟩

end Sys2Proof.Machine
end

section
/-! PROOFS. The fields of a control word as disjoint ranges of bits (30_encoding.md R75, R79): what
one insertion, and a row of insertions, puts under a mask. -/

namespace Sys2Proof

/-- The mask of a descriptor is the range of `width` bits at `shift`, and a byte holds the field. -/
abbrev FieldDescriptor.IsRange (f : FieldDescriptor) : Prop :=
  f.width ≤ 8 ∧ f.shift + f.width ≤ 32 ∧
    ∀ i < 32, f.mask.getLsbD i = decide (f.shift ≤ i ∧ i < f.shift + f.width)

/-- The thirteen descriptors of 30_encoding.md R75 and R79 are ranges. -/
theorem isRange_of_mem_descriptors :
    ∀ f ∈ ctrl1Descriptors ++ ctrl2Descriptors, f.IsRange := by decide

/-- What an insertion ORs into the word (40_bitfield.md R108). -/
def FieldDescriptor.place (f : FieldDescriptor) (data : Byte) : BitVec 32 :=
  (data.setWidth 40 <<< f.shift).setWidth 32

theorem FieldDescriptor.be32_set (f : FieldDescriptor) (w : Bytes4) (data : Byte) :
    be32 (f.set w data) = be32 w ||| f.place data :=
  be32_unbe32 _

theorem FieldDescriptor.place_getLsbD (f : FieldDescriptor) (data : Byte) {i : Nat} (hi : i < 32) :
    (f.place data).getLsbD i = (decide (f.shift ≤ i) && data.getLsbD (i - f.shift)) := by
  have hset := setField_getLsbD zeroWord data f.shift i
  have hword := f.be32_set zeroWord data
  unfold FieldDescriptor.set at hword
  simp only [hword, BitVec.getLsbD_or, zeroWord_getLsbD, hi, Bool.false_or, decide_true,
    Bool.true_and] at hset
  exact hset

/-- A field depends on the bits under its mask only (40_bitfield.md R101). -/
theorem FieldDescriptor.get_congr (f : FieldDescriptor) {v w : Bytes4}
    (h : be32 v &&& f.mask = be32 w &&& f.mask) : f.get v = f.get w := by
  simp only [FieldDescriptor.get, getField, h]

section
variable {f : FieldDescriptor} (hf : f.IsRange)
include hf

theorem FieldDescriptor.mask_getLsbD {i : Nat} (hi : i < 32) :
    f.mask.getLsbD i = decide (f.shift ≤ i ∧ i < f.shift + f.width) := by
  obtain ⟨-, -, hmask⟩ := hf
  exact hmask i hi

theorem FieldDescriptor.shift_add_lt {i : Nat} (hi : i < f.width) : f.shift + i < 32 := by
  obtain ⟨-, hrange, -⟩ := hf
  omega

theorem FieldDescriptor.get_getLsbD (w : Bytes4) (i : Nat) :
    (f.get w).getLsbD i = (decide (i < f.width) && (be32 w).getLsbD (f.shift + i)) := by
  have hwidth : f.width ≤ 8 := hf.1
  rw [FieldDescriptor.get, getField_getLsbD]
  by_cases hi : i < f.width
  · have h32 := FieldDescriptor.shift_add_lt hf hi
    simp [FieldDescriptor.mask_getLsbD hf h32, hi, hi.trans_le hwidth]
  · by_cases h32 : f.shift + i < 32
    · simp [FieldDescriptor.mask_getLsbD hf h32, hi]
    · simp [hi, f.mask.getLsbD_of_ge _ (Nat.le_of_not_lt h32)]

theorem FieldDescriptor.get_lt (w : Bytes4) : (f.get w).toNat < 2 ^ f.width := by
  refine Nat.lt_pow_two_of_testBit _ fun i hi => ?_
  have hbit := FieldDescriptor.get_getLsbD hf w i
  rw [decide_eq_false (Nat.not_lt.2 hi), Bool.false_and] at hbit
  exact hbit

/-- A value that fits stays inside the mask. -/
theorem FieldDescriptor.place_and_mask {data : Byte} (hfits : data.toNat < 2 ^ f.width) :
    f.place data &&& f.mask = f.place data := by
  apply BitVec.eq_of_getLsbD_eq
  intro i hi
  rw [BitVec.getLsbD_and, f.place_getLsbD data hi, FieldDescriptor.mask_getLsbD hf hi]
  by_cases hout : f.shift + f.width ≤ i
  · simp [getLsbD_false_of_toNat_lt hfits (show f.width ≤ i - f.shift by omega)]
  · by_cases hlow : f.shift ≤ i
    · simp [hlow, Nat.lt_of_not_le hout]
    · simp [hlow]

/-- What is read from a word, placed again, is what the word holds under the mask. -/
theorem FieldDescriptor.place_get (w : Bytes4) : f.place (f.get w) = be32 w &&& f.mask := by
  apply BitVec.eq_of_getLsbD_eq
  intro i hi
  rw [BitVec.getLsbD_and, f.place_getLsbD _ hi, FieldDescriptor.mask_getLsbD hf hi,
    FieldDescriptor.get_getLsbD hf]
  by_cases hlow : f.shift ≤ i
  · have hiff : i - f.shift < f.width ↔ i < f.shift + f.width := by omega
    simp [hlow, hiff, Nat.add_sub_cancel' hlow, Bool.and_comm]
  · simp [hlow]

/-- A word that holds a placed value under the mask gives that value back. -/
theorem FieldDescriptor.get_eq_of_and_mask {w : Bytes4} {data : Byte}
    (hfits : data.toNat < 2 ^ f.width) (h : be32 w &&& f.mask = f.place data) :
    f.get w = data := by
  apply BitVec.eq_of_getLsbD_eq
  intro i hi
  rw [FieldDescriptor.get_getLsbD hf]
  by_cases hin : i < f.width
  · have h32 := FieldDescriptor.shift_add_lt hf hin
    have hbit := congrArg (BitVec.getLsbD · (f.shift + i)) h
    simpa [f.place_getLsbD data h32, FieldDescriptor.mask_getLsbD hf h32, hin] using hbit
  · simp [hin, getLsbD_false_of_toNat_lt hfits (Nat.le_of_not_lt hin)]

/-- An insertion changes nothing under a mask disjoint from the field's. -/
theorem FieldDescriptor.set_and_of_disjoint {m : BitVec 32} (hdisjoint : f.mask &&& m = 0#32)
    (w : Bytes4) {data : Byte} (hfits : data.toNat < 2 ^ f.width) :
    be32 (f.set w data) &&& m = be32 w &&& m := by
  have hplace : f.place data &&& m = 0#32 := by
    rw [← FieldDescriptor.place_and_mask hf hfits, BitVec.and_assoc, hdisjoint, BitVec.and_zero]
  rw [f.be32_set, BitVec.and_or_distrib_right, hplace, BitVec.or_zero]

/-- A value that fits, set where the field is clear, reads back (40_bitfield.md R112 (b)). -/
theorem FieldDescriptor.get_set {w : Bytes4} {data : Byte} (hfits : data.toNat < 2 ^ f.width)
    (hclear : be32 w &&& f.mask = 0#32) : f.get (f.set w data) = data := by
  refine FieldDescriptor.get_eq_of_and_mask hf hfits ?_
  rw [f.be32_set, BitVec.and_or_distrib_right, hclear, FieldDescriptor.place_and_mask hf hfits,
    BitVec.zero_or]

/-- No bit outside the mask changes (40_bitfield.md R112 (c)). -/
theorem FieldDescriptor.set_and_not_mask (w : Bytes4) {data : Byte}
    (hfits : data.toNat < 2 ^ f.width) :
    be32 (f.set w data) &&& ~~~ f.mask = be32 w &&& ~~~ f.mask :=
  FieldDescriptor.set_and_of_disjoint hf (BitVec.and_not_self _) w hfits

/-- Copying a field of `w` into another word ORs in the bits of `w` under the mask. -/
theorem FieldDescriptor.be32_set_get (v w : Bytes4) :
    be32 (f.set v (f.get w)) = be32 v ||| (be32 w &&& f.mask) := by
  rw [f.be32_set, FieldDescriptor.place_get hf]

end

/-- One insertion per descriptor and value, in order (46_frame_encoder.md R266, R272). -/
def setFields (w : Bytes4) (l : List (FieldDescriptor × Byte)) : Bytes4 :=
  l.foldl (fun v p => p.1.set v p.2) w

theorem setFields_cons (w : Bytes4) (p : FieldDescriptor × Byte)
    (l : List (FieldDescriptor × Byte)) : setFields w (p :: l) = setFields (p.1.set w p.2) l := rfl

/-- A value that fits the range of its descriptor. -/
abbrev FitsField (p : FieldDescriptor × Byte) : Prop := p.1.IsRange ∧ p.2.toNat < 2 ^ p.1.width

theorem setFields_and_of_disjoint {m : BitVec 32} {l : List (FieldDescriptor × Byte)}
    (hfits : ∀ p ∈ l, FitsField p) (hdisjoint : ∀ p ∈ l, p.1.mask &&& m = 0#32) (w : Bytes4) :
    be32 (setFields w l) &&& m = be32 w &&& m := by
  induction l generalizing w with
  | nil => rfl
  | cons p l ih =>
    rw [List.forall_mem_cons] at hfits hdisjoint
    obtain ⟨hrange, hvalue⟩ := hfits.1
    rw [setFields_cons, ih hfits.2 hdisjoint.2,
      FieldDescriptor.set_and_of_disjoint hrange hdisjoint.1 w hvalue]

/-- Values set at disjoint fields of a word that is clear there all read back. -/
theorem get_setFields {l : List (FieldDescriptor × Byte)} (hfits : ∀ p ∈ l, FitsField p)
    (hdisjoint : l.Pairwise fun p q => p.1.mask &&& q.1.mask = 0#32) {w : Bytes4}
    (hclear : ∀ p ∈ l, be32 w &&& p.1.mask = 0#32) :
    ∀ p ∈ l, p.1.get (setFields w l) = p.2 := by
  induction l generalizing w with
  | nil => simp
  | cons p l ih =>
    rw [List.forall_mem_cons] at hfits hclear ⊢
    rw [List.pairwise_cons] at hdisjoint
    obtain ⟨hrange, hvalue⟩ := hfits.1
    constructor
    · have hkept := setFields_and_of_disjoint (m := p.1.mask) hfits.2
        (fun q hq => by rw [BitVec.and_comm]; exact hdisjoint.1 q hq) (p.1.set w p.2)
      rw [setFields_cons, p.1.get_congr hkept, FieldDescriptor.get_set hrange hvalue hclear.1]
    · refine ih hfits.2 hdisjoint.2 fun q hq => ?_
      rw [FieldDescriptor.set_and_of_disjoint hrange (hdisjoint.1 q hq) w hvalue]
      exact hclear.2 q hq

end Sys2Proof
end

section
/-! PROOFS. Decode and encode agree (30_encoding.md R74, R78, R85): the two control words are read
back from their own bytes, and no bit of either is dropped. -/

namespace Sys2Proof

/-- The fields of control word 1 with their descriptors, in the encoder's order (46_frame_encoder.md
R266). -/
def ctrl1Fields (c : ControlWord1Fields) : List (FieldDescriptor × Byte) :=
  [(versionField, c.version), (destinationsField, c.destinations), (optionField, c.optionBits),
    (fromField, c.fromRelay), (sequenceField, c.sequenceNo), (retryField, c.retry),
    (moreDataField, c.moreData), (identifierField, c.identifier), (moreHeaderField, c.moreHeader)]

/-- The fields of control word 2 with their descriptors, in the encoder's order (46_frame_encoder.md
R272). -/
def ctrl2Fields (v : ControlWord2Wire) : List (FieldDescriptor × Byte) :=
  [(dataLengthField, v.dataUnits), (featureField, v.feature), (negAnswerField, v.negAnswer),
    (freqSwitchField, v.freqSwitch)]

theorem packCtrl1_eq_setFields (c : ControlWord1Fields) :
    packCtrl1 c = setFields zeroWord (ctrl1Fields c) := rfl

theorem packCtrl2_eq_setFields (v : ControlWord2Wire) :
    packCtrl2 v.dataUnits v.feature v.negAnswer v.freqSwitch = setFields zeroWord (ctrl2Fields v) :=
  rfl

theorem be32_zeroWord : be32 zeroWord = 0#32 := by decide

theorem zeroWord_and (m : BitVec 32) : be32 zeroWord &&& m = 0#32 := by
  rw [be32_zeroWord, BitVec.zero_and]

theorem zeroWord_clear {l : List (FieldDescriptor × Byte)} :
    ∀ p ∈ l, be32 zeroWord &&& p.1.mask = 0#32 := fun p _ => zeroWord_and p.1.mask

theorem ctrl1Fields_descriptors (c : ControlWord1Fields) :
    (ctrl1Fields c).map Prod.fst = ctrl1Descriptors := rfl

theorem ctrl2Fields_descriptors (v : ControlWord2Wire) :
    (ctrl2Fields v).map Prod.fst = ctrl2Descriptors := rfl

/-- The wire widths of R75 are the largest values of `Fits`. -/
theorem ctrl1Fields_fit {c : ControlWord1Fields} (h : c.Fits) :
    ∀ p ∈ ctrl1Fields c, FitsField p := by
  obtain ⟨hversion, hoption, hfrom, hsequence, hretry, hmoreData, hidentifier, hmoreHeader⟩ := h
  rw [BitVec.le_def] at hversion hoption hfrom hsequence hretry hmoreData hidentifier hmoreHeader
  have hvalues : ∀ p ∈ ctrl1Fields c, p.2.toNat < 2 ^ p.1.width := by
    simp only [ctrl1Fields, List.forall_mem_cons]
    exact ⟨Nat.lt_succ_of_le hversion, c.destinations.isLt, Nat.lt_succ_of_le hoption,
      Nat.lt_succ_of_le hfrom, Nat.lt_succ_of_le hsequence, Nat.lt_succ_of_le hretry,
      Nat.lt_succ_of_le hmoreData, Nat.lt_succ_of_le hidentifier, Nat.lt_succ_of_le hmoreHeader,
      nofun⟩
  exact fun p hp => ⟨isRange_of_mem_descriptors p.1
    (List.mem_append_left _ (List.mem_map_of_mem (f := Prod.fst) hp)), hvalues p hp⟩

/-- The wire widths of R79 are the largest values of `Fits`. -/
theorem ctrl2Fields_fit {v : ControlWord2Wire} (h : v.Fits) :
    ∀ p ∈ ctrl2Fields v, FitsField p := by
  obtain ⟨hfeature, hnegAnswer, hfreqSwitch⟩ := h
  rw [BitVec.le_def] at hfeature hnegAnswer hfreqSwitch
  have hvalues : ∀ p ∈ ctrl2Fields v, p.2.toNat < 2 ^ p.1.width := by
    simp only [ctrl2Fields, List.forall_mem_cons]
    exact ⟨v.dataUnits.isLt, Nat.lt_succ_of_le hfeature, Nat.lt_succ_of_le hnegAnswer,
      Nat.lt_succ_of_le hfreqSwitch, nofun⟩
  exact fun p hp => ⟨isRange_of_mem_descriptors p.1
    (List.mem_append_right _ (List.mem_map_of_mem (f := Prod.fst) hp)), hvalues p hp⟩

/-- No two fields of control word 1 share a bit (R75). -/
theorem ctrl1Fields_disjoint (c : ControlWord1Fields) :
    (ctrl1Fields c).Pairwise fun p q => p.1.mask &&& q.1.mask = 0#32 := by
  have hmasks : ctrl1Descriptors.Pairwise fun f g => f.mask &&& g.mask = 0#32 := by decide
  rw [← ctrl1Fields_descriptors c] at hmasks
  exact List.pairwise_map.1 hmasks

/-- No two fields of control word 2 share a bit (R79). -/
theorem ctrl2Fields_disjoint (v : ControlWord2Wire) :
    (ctrl2Fields v).Pairwise fun p q => p.1.mask &&& q.1.mask = 0#32 := by
  have hmasks : ctrl2Descriptors.Pairwise fun f g => f.mask &&& g.mask = 0#32 := by decide
  rw [← ctrl2Fields_descriptors v] at hmasks
  exact List.pairwise_map.1 hmasks

/-- Control word 1 is read back: its fields are disjoint and stand in a clear word. -/
theorem unpackCtrl1_packCtrl1 {c : ControlWord1Fields} (h : c.Fits) :
    unpackCtrl1 (packCtrl1 c) = c := by
  have hget := get_setFields (ctrl1Fields_fit h) (ctrl1Fields_disjoint c) zeroWord_clear
  rw [← packCtrl1_eq_setFields] at hget
  simp only [ctrl1Fields, List.forall_mem_cons] at hget
  obtain ⟨hversion, hdestinations, hoption, hfrom, hsequence, hretry, hmoreData, hidentifier,
    hmoreHeader, -⟩ := hget
  rw [unpackCtrl1, hversion, hdestinations, hoption, hfrom, hsequence, hretry, hmoreData,
    hidentifier, hmoreHeader]

/-- The 21 reserved bits of control word 2 (R78). -/
def reservedMask : BitVec 32 := 0x001FFFFF

theorem reservedMask_getLsbD (i : Nat) : reservedMask.getLsbD i = decide (i < 21) := by
  have hones : reservedMask = (BitVec.allOnes 21).setWidth 32 := by decide
  rw [hones, BitVec.getLsbD_setWidth, BitVec.getLsbD_allOnes]
  by_cases hi : i < 21
  · simp [hi, show i < 32 by omega]
  · simp [hi]

/-- The reserved bits, put back in place, are what the word holds under their mask. -/
theorem extractReserved_setWidth (x : BitVec 32) :
    (x.extractLsb' 0 21).setWidth 32 = x &&& reservedMask := by
  apply BitVec.eq_of_getLsbD_eq
  intro i hi
  simp only [BitVec.getLsbD_setWidth, BitVec.getLsbD_extractLsb', BitVec.getLsbD_and,
    reservedMask_getLsbD, hi, decide_true, Bool.true_and, Nat.zero_add]
  exact Bool.and_comm _ _

theorem setWidth_reserved_injective {x y : BitVec 21} (h : x.setWidth 32 = y.setWidth 32) :
    x = y := by
  simpa using congrArg (BitVec.setWidth 21) h

/-- Reserved bits widened to a word stay under their mask. -/
theorem setWidth_reserved_and (x : BitVec 21) : x.setWidth 32 &&& reservedMask = x.setWidth 32 := by
  have hback : (x.setWidth 32).extractLsb' 0 21 = x := by
    rw [BitVec.extractLsb'_setWidth_of_le (by decide), ← BitVec.setWidth_eq_extractLsb' (by decide),
      BitVec.setWidth_eq]
  rw [← extractReserved_setWidth, hback]

/-- The reserved bits of control word 2 lie under none of its fields (R78, R79). -/
theorem ctrl2Fields_reserved_disjoint (v : ControlWord2Wire) :
    ∀ p ∈ ctrl2Fields v, p.1.mask &&& reservedMask = 0#32 := by
  have hmasks : ∀ f ∈ ctrl2Descriptors, f.mask &&& reservedMask = 0#32 := by decide
  exact fun p hp => hmasks p.1 (List.mem_map_of_mem (f := Prod.fst) hp)

theorem be32_packCtrl2Wire (v : ControlWord2Wire) :
    be32 (packCtrl2Wire v) =
      be32 (setFields zeroWord (ctrl2Fields v)) ||| v.reserved.setWidth 32 := by
  rw [packCtrl2Wire, be32_unbe32, packCtrl2_eq_setFields]

/-- Each field of control word 2 is read back, the reserved bits notwithstanding. -/
theorem get_packCtrl2Wire {v : ControlWord2Wire} (h : v.Fits) :
    ∀ p ∈ ctrl2Fields v, p.1.get (packCtrl2Wire v) = p.2 := by
  intro p hp
  have hreserved : v.reserved.setWidth 32 &&& p.1.mask = 0#32 := by
    rw [← setWidth_reserved_and, BitVec.and_assoc, BitVec.and_comm reservedMask,
      ctrl2Fields_reserved_disjoint v p hp, BitVec.and_zero]
  have hsame : be32 (packCtrl2Wire v) &&& p.1.mask =
      be32 (setFields zeroWord (ctrl2Fields v)) &&& p.1.mask := by
    rw [be32_packCtrl2Wire, BitVec.and_or_distrib_right, hreserved, BitVec.or_zero]
  rw [p.1.get_congr hsame]
  exact get_setFields (ctrl2Fields_fit h) (ctrl2Fields_disjoint v) zeroWord_clear p hp

/-- The reserved bits are read back: no field that fits reaches them. -/
theorem reserved_packCtrl2Wire {v : ControlWord2Wire} (h : v.Fits) :
    (be32 (packCtrl2Wire v)).extractLsb' 0 21 = v.reserved := by
  apply setWidth_reserved_injective
  rw [extractReserved_setWidth, be32_packCtrl2Wire, BitVec.and_or_distrib_right,
    setFields_and_of_disjoint (ctrl2Fields_fit h) (ctrl2Fields_reserved_disjoint v), zeroWord_and,
    setWidth_reserved_and, BitVec.zero_or]

theorem unpackCtrl2_packCtrl2Wire {v : ControlWord2Wire} (h : v.Fits) :
    unpackCtrl2 (packCtrl2Wire v) = v := by
  have hget := get_packCtrl2Wire h
  simp only [ctrl2Fields, List.forall_mem_cons] at hget
  obtain ⟨hunits, hfeature, hnegAnswer, hfreqSwitch, -⟩ := hget
  rw [unpackCtrl2, hunits, hfeature, hnegAnswer, hfreqSwitch, reserved_packCtrl2Wire h]

/-- A control word 1 of four bytes always decodes (R74). -/
theorem decode_ctrlWord1 (w : Bytes4) :
    decode .ctrlWord1 w.toList = .ok (.ctrlWord1 (unpackCtrl1 w)) := rfl

/-- A control word 2 of four bytes always decodes (R78). -/
theorem decode_ctrlWord2 (w : Bytes4) :
    decode .ctrlWord2 w.toList = .ok (.ctrlWord2 (unpackCtrl2 w)) := rfl

/-- Settles O6: an operation is its code, and a control word is read back field by field. -/
theorem decodeOfEncodeIsIdentity : Obligations.DecodeOfEncodeIsIdentity := by
  intro i hwf
  cases i with
  | ctrlWord1 c =>
    have hback := unpackCtrl1_packCtrl1 (of_decide_eq_true hwf)
    show decode .ctrlWord1 (packCtrl1 c).toList = _
    rw [decode_ctrlWord1, hback]
  | ctrlWord2 v =>
    have hback := unpackCtrl2_packCtrl2Wire (of_decide_eq_true hwf)
    show decode .ctrlWord2 (packCtrl2Wire v).toList = _
    rw [decode_ctrlWord2, hback]
  | _ => rfl

/-- What is read from a word at a descriptor of the table is within its width. -/
theorem get_le {f : FieldDescriptor} (hf : f ∈ ctrl1Descriptors ++ ctrl2Descriptors) (w : Bytes4)
    {n : Byte} (hn : 2 ^ f.width = n.toNat + 1) : f.get w ≤ n := by
  have hlt := FieldDescriptor.get_lt (isRange_of_mem_descriptors f hf) w
  rw [BitVec.le_def]
  omega

theorem unpackCtrl1_fits (w : Bytes4) : (unpackCtrl1 w).Fits :=
  ⟨get_le (f := versionField) (by decide) w rfl, get_le (f := optionField) (by decide) w rfl,
    get_le (f := fromField) (by decide) w rfl, get_le (f := sequenceField) (by decide) w rfl,
    get_le (f := retryField) (by decide) w rfl, get_le (f := moreDataField) (by decide) w rfl,
    get_le (f := identifierField) (by decide) w rfl,
    get_le (f := moreHeaderField) (by decide) w rfl⟩

theorem unpackCtrl2_fits (w : Bytes4) : (unpackCtrl2 w).Fits :=
  ⟨get_le (f := featureField) (by decide) w rfl, get_le (f := negAnswerField) (by decide) w rfl,
    get_le (f := freqSwitchField) (by decide) w rfl⟩

/-- Fields copied from `w` into another word OR in the bits of `w` under their masks. -/
theorem be32_setFields_get {l : List FieldDescriptor} (hl : ∀ f ∈ l, f.IsRange) (v w : Bytes4) :
    be32 (setFields v (l.map fun f => (f, f.get w))) =
      be32 v ||| (be32 w &&& l.foldr (fun f m => f.mask ||| m) 0#32) := by
  induction l generalizing v with
  | nil => simp [setFields]
  | cons f l ih =>
    rw [List.forall_mem_cons] at hl
    rw [List.map_cons, setFields_cons, ih hl.2, FieldDescriptor.be32_set_get hl.1, List.foldr_cons,
      BitVec.and_or_distrib_left, BitVec.or_assoc]

theorem be32_injective {v w : Bytes4} (h : be32 v = be32 w) : v = w := by
  rw [← unbe32_be32 v, h, unbe32_be32]

/-- Control word 1 has no reserved bit: its nine masks make up the word (R75). -/
theorem packCtrl1_unpackCtrl1 (w : Bytes4) : packCtrl1 (unpackCtrl1 w) = w := by
  have hmasks : ctrl1Descriptors.foldr (fun f m => f.mask ||| m) 0#32 = BitVec.allOnes 32 := by
    decide
  have hcopy : be32 (packCtrl1 (unpackCtrl1 w)) = _ :=
    be32_setFields_get (l := ctrl1Descriptors) (by decide) zeroWord w
  apply be32_injective
  rw [hcopy, be32_zeroWord, hmasks, BitVec.zero_or, BitVec.and_allOnes]

/-- The four masks of control word 2 and its reserved bits make up the word (R78, R79). -/
theorem packCtrl2Wire_unpackCtrl2 (w : Bytes4) : packCtrl2Wire (unpackCtrl2 w) = w := by
  have hmasks : ctrl2Descriptors.foldr (fun f m => f.mask ||| m) 0#32 ||| reservedMask =
      BitVec.allOnes 32 := by decide
  have hcopy : be32 (setFields zeroWord (ctrl2Fields (unpackCtrl2 w))) = _ :=
    be32_setFields_get (l := ctrl2Descriptors) (by decide) zeroWord w
  have hreserved : (unpackCtrl2 w).reserved.setWidth 32 = be32 w &&& reservedMask :=
    extractReserved_setWidth (be32 w)
  apply be32_injective
  rw [be32_packCtrl2Wire, hcopy, hreserved, be32_zeroWord, BitVec.zero_or,
    ← BitVec.and_or_distrib_left, hmasks, BitVec.and_allOnes]

/-- Settles O7: the masks, with the reserved bits of control word 2, cover all 32 bits. -/
theorem controlWordsLoseNoBit : Obligations.ControlWordsLoseNoBit := by
  intro v
  exact ⟨⟨unpackCtrl1 v, decode_ctrlWord1 v, unpackCtrl1_fits v,
      congrArg Bytes4.toList (packCtrl1_unpackCtrl1 v)⟩,
    ⟨unpackCtrl2 v, decode_ctrlWord2 v, unpackCtrl2_fits v,
      congrArg Bytes4.toList (packCtrl2Wire_unpackCtrl2 v)⟩⟩

/-- Settles O5: the bytes written out are the encodings of well-formed instructions. -/
theorem wordsOfSpecDecode : Obligations.WordsOfSpecDecode := by
  have hread : ∀ i : Instr, i.wellFormed = true → decode i.source (encode i) = .ok i :=
    decodeOfEncodeIsIdentity
  exact ⟨hread .getField rfl, hread .setField rfl, hread .crc16 rfl, hread .aesEncrypt rfl,
    hread .aesDecrypt rfl, hread .arisDecrypt rfl, hread .arisEncrypt rfl, hread .decode rfl,
    hread .encode rfl, hread .unpack rfl, hread .pack rfl, hread .serialize rfl,
    hread (.ctrlWord1 ⟨1, 2, 5, 1, 33, 1, 0, 100, 1⟩) (by decide),
    hread (.ctrlWord1 ⟨2, 3, 0, 0, 1, 0, 0, 7, 1⟩) (by decide),
    hread (.ctrlWord2 ⟨2, 1, 0, 1, 0⟩) (by decide)⟩

/-- Every shift of the table is in the domain of the two operations (40_bitfield.md R105, R111). -/
theorem shift_le_of_mem_descriptors :
    ∀ f ∈ ctrl1Descriptors ++ ctrl2Descriptors, f.shift ≤ 31 := by decide

namespace Machine

/-- SET_FIELD in its domain (40_bitfield.md R108). -/
theorem exec_setField_of_shift_le {s : State} (h : s.operands.shift.toNat ≤ 31) :
    exec .setField s = .next (s.complete { s.undriven with
      wordOut := setField s.operands.word s.operands.data8 s.operands.shift.toNat }) := by
  show execSetField s = _
  rw [execSetField, shiftInDomain, decide_eq_true h, if_pos rfl]

/-- GET_FIELD of a present word, in its domain (40_bitfield.md R101). -/
theorem exec_getField_of_shift_le {s : State} (hpresent : s.operands.wordPresent = true)
    (h : s.operands.shift.toNat ≤ 31) :
    exec .getField s = .next (s.complete { s.undriven with
      field := getField s.operands.word s.operands.mask s.operands.shift.toNat }) := by
  show execGetField s = _
  rw [execGetField, shiftInDomain, decide_eq_true h, if_pos hpresent, if_pos rfl]

end Machine

/-- Settles O22: the two operations are `set` and `get` of the descriptor. -/
theorem setFieldThenGetFieldReadsBack : Obligations.SetFieldThenGetFieldReadsBack := by
  intro f hf s hshift hfits hclear
  have hrange := isRange_of_mem_descriptors f hf
  have hdomain := shift_le_of_mem_descriptors f hf
  refine ⟨_, Machine.exec_setField_of_shift_le (hshift.trans_le hdomain), ?_, ?_⟩
  · rw [Machine.State.complete_wordOut, hshift]
    exact FieldDescriptor.set_and_not_mask hrange s.operands.word hfits
  · intro u hpresent hword hmask hushift
    refine ⟨_, Machine.exec_getField_of_shift_le hpresent (hushift.trans_le hdomain), ?_⟩
    rw [Machine.State.complete_field, hword, Machine.State.complete_wordOut, hmask, hushift, hshift]
    exact FieldDescriptor.get_set hrange hfits hclear

end Sys2Proof
end

section
/-! PROOFS. The length of a frame (30_encoding.md R72, R73, R90): its bounds, and that of a frame
that DECODE answers. -/

namespace Sys2Proof

/-- The least length is that of the sections that are always there (R72). -/
theorem le_frameLen (d : Nat) (f m : Bool) (n : Nat) : 30 ≤ frameLen d f m n := by
  unfold frameLen
  omega

/-- The most is reached with every count at its greatest (00_scope.md R9). -/
theorem frameLen_le {d n : Nat} (f m : Bool) (hd : d ≤ 255) (hn : n ≤ 2040) :
    frameLen d f m n ≤ 3612 := by
  have hf := count_le f
  have hm := count_le m
  have hdata := count_le (decide (0 < n))
  unfold frameLen
  omega

theorem dataLen_le (m : Bool) (units : Byte) : dataLen m units.toNat ≤ 2040 := by
  have hunits := units.isLt
  cases m
  · exact Nat.zero_le _
  · show Config.unit * units.toNat ≤ 2040
    rw [Config.unit]
    omega

/-- A frame's bytes are its header, the header CRC, the data with its CRC, and `end` (R72, R73). -/
theorem frameLen_eq_headerLen_add (d : Nat) (f m : Bool) (n : Nat) :
    frameLen d f m n = headerLen d f m + 2 + n + 2 * count (decide (0 < n)) + 4 := by
  unfold frameLen headerLen
  omega

/-- Without control word 2 there are no units, whatever was counted. -/
theorem dataLen_eq_of_units {ctrl2 : Option Bytes4} {units : Nat}
    (h : ctrl2.isSome = true → units = wireUnits ctrl2) :
    dataLen ctrl2.isSome units = 8 * wireUnits ctrl2 := by
  cases ctrl2 with
  | none => rfl
  | some w =>
    rw [h rfl]
    rfl

theorem RawFrame.wireUnits_le (r : RawFrame) : r.wireUnits ≤ 255 := by
  unfold RawFrame.wireUnits Sys2Proof.wireUnits
  cases r.ctrl2 with
  | none => exact Nat.zero_le _
  | some w => exact Nat.le_of_lt_succ (dataLengthField.get w).isLt

section
variable {r : RawFrame} {netid : Bytes4} {key : Bytes16} (h : r.WellFormed netid key)
include h

theorem RawFrame.WellFormed.data_length : (r.data.getD []).length = 8 * r.wireUnits := by
  obtain ⟨-, -, -, hdata, -⟩ := h
  cases hd : r.data with
  | none =>
    rw [hd] at hdata
    by_cases hunits : 0 < r.wireUnits
    · simp [hunits] at hdata
    · simp [Nat.eq_zero_of_not_pos hunits]
  | some d =>
    rw [hd] at hdata
    by_cases hunits : 0 < r.wireUnits
    · simpa [hunits, Config.unit] using hdata
    · simp [hunits] at hdata

/-- A data CRC is there exactly with data (10_state.md R31). -/
theorem RawFrame.WellFormed.crcData_isSome :
    r.crcData.isSome = decide (0 < 8 * r.wireUnits) := by
  obtain ⟨-, -, -, hdata, -, -, -, -, hcrc⟩ := h
  have hsame : r.crcData.isSome = r.data.isSome := by
    simpa using congrArg Option.isSome hcrc
  have hthere : r.data.isSome = decide (0 < 8 * r.wireUnits) := by
    rw [← Option.isSome_map, hdata]
    by_cases hunits : 0 < r.wireUnits <;> simp [hunits]
  rw [hsame, hthere]

/-- The bytes of a well-formed frame are as many as R72 says. -/
theorem RawFrame.WellFormed.serializeFrame_length :
    (serializeFrame r).length =
      frameLen r.destinationsB.length r.destinationC.isSome r.ctrl2.isSome (8 * r.wireUnits) := by
  rw [Sys2Proof.serializeFrame_length, r.headerBytes_length, h.data_length, h.crcData_isSome,
    frameLen_eq_headerLen_add]

theorem RawFrame.WellFormed.serializeFrame_length_le : (serializeFrame r).length ≤ 3612 := by
  have hd : r.destinationsB.length ≤ 255 := by
    obtain ⟨hcount, -⟩ := h
    rw [hcount]
    exact Nat.le_of_lt_succ (destinationsField.get r.ctrl).isLt
  have hunits := r.wireUnits_le
  rw [h.serializeFrame_length]
  exact frameLen_le _ _ hd (by omega)

end

namespace Machine

/-- When DECODE ends with `Ok`, `RAW_OUT` is well formed, its bytes are the first of the span, and
`CONSUMED` counts them, no frame being too long for 16 bits. -/
theorem exec_decode_ok_wellFormed {s t : State} (hexec : exec .decode s = .next t)
    (hok : t.results.status = .ok) :
    t.results.rawOut.WellFormed s.operands.netid s.operands.key ∧
      t.results.consumed.toNat = (serializeFrame t.results.rawOut).length ∧
      s.operands.input = serializeFrame t.results.rawOut ++
        s.operands.input.drop (serializeFrame t.results.rawOut).length := by
  obtain ⟨r, n, hframe, hraw, hconsumed⟩ := exec_decode_ok hexec hok
  obtain ⟨hwf, rfl, hinput⟩ := decodeFrame_eq_ok_iff.1 hframe
  have hlen := hwf.serializeFrame_length_le
  rw [hraw, hconsumed, BitVec.toNat_ofNat, Nat.mod_eq_of_lt (by omega)]
  exact ⟨hwf, rfl, hinput⟩

/-- Settles O37: `CONSUMED` is the length of the frame's bytes, with which the span begins. -/
theorem decodedFrameIsWellFormed : Obligations.DecodedFrameIsWellFormed := by
  intro s t hexec hok
  obtain ⟨hwf, hconsumed, hinput⟩ := exec_decode_ok_wellFormed hexec hok
  refine ⟨hwf, hconsumed.trans hwf.serializeFrame_length, ?_⟩
  rw [hconsumed, hinput, List.take_left]

/-- Settles O54: the bounds of the frame length at the counts that eight bits hold; a decoder that
has taken nothing reaches the least, one with every field at its greatest the most. -/
theorem frameLengthIsBounded : Obligations.FrameLengthIsBounded := by
  refine ⟨fun w => ⟨le_frameLen _ _ _ _, ?_⟩, ⟨DecoderWork.start, rfl⟩, ⟨⟨0, 255, 1, 1, 255⟩, rfl⟩⟩
  exact frameLen_le _ _ (Nat.le_of_lt_succ w.destinations.isLt) (dataLen_le _ _)

/-- What the decoder takes from control word 1 of a well-formed frame fixes the header length
(30_encoding.md R90). -/
theorem headerLength_takeCtrl1 {r : RawFrame} {netid : Bytes4} {key : Bytes16}
    (h : r.WellFormed netid key) (w : DecoderWork) :
    (w.takeCtrl1 (unpackCtrl1 r.ctrl)).headerLength = r.headerBytes.length := by
  obtain ⟨hdestinations, hfrom, hmoreHeader, -⟩ := h
  rw [r.headerBytes_length, hdestinations, hfrom, hmoreHeader]
  rfl

/-- Values of the decoder that agree with a well-formed frame, and with its units when it has a
control word 2, fix its length (30_encoding.md R90). -/
theorem frameLength_eq {r : RawFrame} {netid : Bytes4} {key : Bytes16} (h : r.WellFormed netid key)
    {w : DecoderWork} (hdestinations : w.destinations = destinationsField.get r.ctrl)
    (hfrom : w.fromRelay = fromField.get r.ctrl)
    (hmoreHeader : w.moreHeader = moreHeaderField.get r.ctrl)
    (hunits : r.ctrl2.isSome = true → w.dataUnits.toNat = r.wireUnits) :
    w.frameLength = (serializeFrame r).length := by
  have hdata : dataLen r.ctrl2.isSome w.dataUnits.toNat = 8 * r.wireUnits :=
    dataLen_eq_of_units hunits
  rw [h.serializeFrame_length, ← hdata]
  obtain ⟨hcount, hdestC, hctrl2, -⟩ := h
  rw [hcount, hdestC, hctrl2, ← hdestinations, ← hfrom, ← hmoreHeader]
  rfl

/-- Settles O53: a frame without control word 2 has no units, so what the decoder held of them does
not count. -/
theorem controlWordsFixFrameLength : Obligations.ControlWordsFixFrameLength := by
  intro s t a b hexec hok htake1 hnone hsome
  obtain ⟨hwf, hconsumed, -⟩ := exec_decode_ok_wellFormed hexec hok
  cases htake1
  refine ⟨headerLength_takeCtrl1 hwf s.work, ?_⟩
  rw [hconsumed]
  cases hctrl2 : t.results.rawOut.ctrl2 with
  | none =>
    cases hnone hctrl2
    exact frameLength_eq hwf rfl rfl rfl (by simp [hctrl2])
  | some w =>
    cases hsome w hctrl2
    refine frameLength_eq hwf rfl rfl rfl fun _ => ?_
    rw [RawFrame.wireUnits, hctrl2]
    rfl

end Machine

end Sys2Proof
end

section
/-! PROOFS. What a step runs (30_encoding.md R85, R86, 45_frame_decoder.md R221), and that an
operation is a function of its listed operands (10_state.md R20, 20_memory.md R59). -/

namespace Sys2Proof.Machine

theorem step_of_decode_ok {s : State} {bytes : List Byte} {i : Instr}
    (hbytes : fetchBytes s = .ok bytes) (hdecode : decode s.source bytes = .ok i) :
    step s = exec i s := by
  have hfetch : fetch s = .ok i := by rw [fetch, hbytes, ok_bind, hdecode]
  rw [step, hfetch]

theorem step_of_decode_error {s : State} {bytes : List Byte} {r : Reject}
    (hbytes : fetchBytes s = .ok bytes) (hdecode : decode s.source bytes = .error r) :
    step s = .next (s.raise (rejectKind r)) := by
  have hfetch : fetch s = .error (rejectKind r) := by rw [fetch, hbytes, ok_bind, hdecode]
  rw [step, hfetch]

theorem fetchBytes_of_opPort {s : State} (h : s.source = .opPort) :
    fetchBytes s = .ok [s.operands.op] := by
  rw [fetchBytes, h]

/-- The bytes of a control word that stands at the cursor. -/
theorem fetchBytes_of_word_at_cursor {s : State} {a b : List Byte} {w : Bytes4}
    (hsource : s.source = .ctrlWord1 ∨ s.source = .ctrlWord2)
    (hinput : s.operands.input = a ++ w.toList ++ b) (hcursor : a.length = s.work.cursor) :
    fetchBytes s = .ok w.toList := by
  rw [fetchBytes_of_ctrlWord hsource, hinput, ← hcursor, List.append_assoc]
  exact memRead_middle a w.toList b

/-- Settles O2: fetch answers the bytes presented, and what they decode to is executed. -/
theorem stepRunsDecodedInstruction : Obligations.StepRunsDecodedInstruction := by
  refine ⟨fun s bytes i => step_of_decode_ok, fun s i hsource hdecode => ?_,
    fun s a b w hinput hcursor => ⟨fun hsource => ?_, fun hsource => ?_⟩⟩
  · exact step_of_decode_ok (fetchBytes_of_opPort hsource) (by rw [hsource, hdecode])
  · exact step_of_decode_ok (fetchBytes_of_word_at_cursor (.inl hsource) hinput hcursor)
      (by rw [hsource, decode_ctrlWord1])
  · exact step_of_decode_ok (fetchBytes_of_word_at_cursor (.inr hsource) hinput hcursor)
      (by rw [hsource, decode_ctrlWord2])

/-- The codes that select no operation (30_encoding.md R86). -/
theorem decodeOp_unassigned {op : Byte} (h : op = 0x00 ∨ 0x0D ≤ op) :
    decodeOp op = .error .unassignedOp := by
  have hcode : op.toNat = 0 ∨ 13 ≤ op.toNat := h.imp (congrArg BitVec.toNat) BitVec.le_def.1
  unfold decodeOp
  split
  case h_13 => rfl
  all_goals omega

/-- Settles O3: the code is rejected, and a rejected code raises `InvalidArgument`. -/
theorem unassignedOpEndsInvalidArgument : Obligations.UnassignedOpEndsInvalidArgument := by
  intro s hsource hop
  have hdecode : decode s.source [s.operands.op] = .error .unassignedOp := by
    rw [hsource]
    exact decodeOp_unassigned hop
  exact ⟨_, step_of_decode_error (fetchBytes_of_opPort hsource) hdecode, s.raise_status _,
    s.raise_operands _⟩

/-- When the first outcome is a next state, so is the second, with the same listed results. -/
def ListedAgree (i : Instr) (x y : Host.Outcome State Fault Refusal) : Prop :=
  ∀ t, x = .next t → ∃ t', y = .next t' ∧ listedResults i t.results = listedResults i t'.results

/-- The ports that `drive` sets cover the results listed for `i`: of the state nothing else is seen. -/
def DrivesListed {α : Type} (i : Instr) (drive : ResultPorts → α → ResultPorts) : Prop :=
  ∀ (s s' : State) (v : α), listedResults i (s.complete (drive s.undriven v)).results =
    listedResults i (s'.complete (drive s'.undriven v)).results

/-- On an error `STATUS` alone is listed (60_exceptions.md R345), so only the ports driven on `Ok`
need to be compared. -/
theorem listedAgree_conclude {α : Type} {i : Instr} {drive : ResultPorts → α → ResultPorts}
    (hdrive : DrivesListed i drive) (s s' : State) (res : Except ErrorKind α) :
    ListedAgree i (.next (s.conclude res drive)) (.next (s'.conclude res drive)) := by
  intro t ht
  cases ht
  cases res with
  | ok v => exact ⟨_, rfl, hdrive s s' v⟩
  | error kind => exact ⟨_, rfl, rfl⟩

theorem listedAgree_refused {i : Instr} (r : Refusal) (y : Host.Outcome State Fault Refusal) :
    ListedAgree i (.refused r) y := by
  intro t ht
  cases ht

/-- An operation that sees the operand ports only through the listed ones, by `run`, agrees on two
states that agree on those. -/
theorem listedAgree_of_run {α : Type} {i : Instr} {s s' : State}
    (run : OperandPorts → Except ErrorKind α) {drive : ResultPorts → α → ResultPorts}
    (hexec : ∀ u, exec i u = .next (u.conclude (run (listedOperands i u.operands)) drive))
    (hdrive : DrivesListed i drive)
    (hlisted : listedOperands i s.operands = listedOperands i s'.operands) :
    ListedAgree i (exec i s) (exec i s') := by
  rw [hexec s, hexec s', hlisted]
  exact listedAgree_conclude hdrive s s' _

theorem listedOperands_getField_eq {o o' : OperandPorts} :
    listedOperands .getField o = listedOperands .getField o' ↔
      o.word = o'.word ∧ o.wordPresent = o'.wordPresent ∧ o.mask = o'.mask ∧
        o.shift = o'.shift := by
  simp [listedOperands]

theorem listedOperands_setField_eq {o o' : OperandPorts} :
    listedOperands .setField o = listedOperands .setField o' ↔
      o.word = o'.word ∧ o.shift = o'.shift ∧ o.data8 = o'.data8 := by
  simp [listedOperands]

/-- GET_FIELD as a function of its ports: the two defined cases drive `FIELD` (40_bitfield.md R101,
R104), the third is refused (R105). -/
theorem listedAgree_getField {s s' : State}
    (hlisted : listedOperands .getField s.operands = listedOperands .getField s'.operands) :
    ListedAgree .getField (exec .getField s) (exec .getField s') := by
  obtain ⟨hword, hpresent, hmask, hshift⟩ := listedOperands_getField_eq.1 hlisted
  have hdrive : DrivesListed .getField (fun r v => { r with field := v }) := fun _ _ _ => rfl
  show ListedAgree .getField (execGetField s) (execGetField s')
  unfold execGetField
  rw [hword, hpresent, hmask, hshift]
  split_ifs
  · exact listedAgree_conclude hdrive s s' (.ok _)
  · exact listedAgree_refused _ _
  · exact listedAgree_conclude hdrive s s' (.ok _)

/-- SET_FIELD as a function of its ports: `WORD_OUT` (40_bitfield.md R108), or refused (R111). -/
theorem listedAgree_setField {s s' : State}
    (hlisted : listedOperands .setField s.operands = listedOperands .setField s'.operands) :
    ListedAgree .setField (exec .setField s) (exec .setField s') := by
  obtain ⟨hword, hshift, hdata⟩ := listedOperands_setField_eq.1 hlisted
  have hdrive : DrivesListed .setField (fun r v => { r with wordOut := v }) := fun _ _ _ => rfl
  show ListedAgree .setField (execSetField s) (execSetField s')
  unfold execSetField
  rw [hword, hdata, hshift]
  split_ifs
  · exact listedAgree_conclude hdrive s s' (.ok _)
  · exact listedAgree_refused _ _

/-- Settles O12: each operation's result, written as a function of its listed operands. -/
theorem resultsDependOnListedOperandsOnly : Obligations.ResultsDependOnListedOperandsOnly := by
  intro i s s' t hoperation hlisted hexec
  suffices hagree : ListedAgree i (exec i s) (exec i s') from hagree t hexec
  cases i with
  | getField => exact listedAgree_getField hlisted
  | setField => exact listedAgree_setField hlisted
  | crc16 =>
    exact listedAgree_of_run (fun o => .ok (crc16 o.input))
      (drive := fun r v => { r with crc := v }) (fun _ => rfl) (fun _ _ _ => rfl) hlisted
  | aesEncrypt =>
    exact listedAgree_of_run (fun o => .ok (aesEncrypt o.key o.input))
      (drive := fun r v => { r with out := v }) (fun _ => rfl) (fun _ _ _ => rfl) hlisted
  | aesDecrypt =>
    exact listedAgree_of_run (fun o => aesDecrypt o.key o.input)
      (fun _ => rfl) (fun _ _ _ => rfl) hlisted
  | arisDecrypt =>
    exact listedAgree_of_run (fun o => arisDecrypt o.key o.marker)
      (fun _ => rfl) (fun _ _ _ => rfl) hlisted
  | arisEncrypt =>
    exact listedAgree_of_run (fun o => .ok (arisEncrypt o.key o.marker))
      (drive := fun r v => { r with markerOut := v }) (fun _ => rfl) (fun _ _ _ => rfl) hlisted
  | decode =>
    exact listedAgree_of_run (fun o => decodeFrame o.input o.key o.netid)
      (fun _ => rfl) (fun _ _ _ => rfl) hlisted
  | encode =>
    exact listedAgree_of_run (fun o => encodeChunk o.chunkIn o.key)
      (fun _ => rfl) (fun _ _ _ => rfl) hlisted
  | unpack =>
    exact listedAgree_of_run (fun o => unpackFrame o.rawIn o.key)
      (fun _ => rfl) (fun _ _ _ => rfl) hlisted
  | pack =>
    exact listedAgree_of_run (fun o => packChunk o.chunkIn o.key)
      (fun _ => rfl) (fun _ _ _ => rfl) hlisted
  | serialize =>
    exact listedAgree_of_run (fun o => .ok (serializeFrame o.rawIn))
      (drive := fun r v => { r with out := v }) (fun _ => rfl) (fun _ _ _ => rfl) hlisted
  | ctrlWord1 c => cases hoperation
  | ctrlWord2 v => cases hoperation

end Sys2Proof.Machine
end

section
/-! PROOFS. The BitField Codec's two operations, each on one transaction (40_bitfield.md R101, R104,
R108). -/

namespace Sys2Proof.Machine

/-- GET_FIELD of an absent word drives the sentinel, whatever `SHIFT` holds (40_bitfield.md R104). -/
theorem exec_getField_of_absent {s : State} (habsent : s.operands.wordPresent = false) :
    exec .getField s =
      .next (s.complete { s.undriven with field := Config.getFieldAbsent }) := by
  show execGetField s = _
  rw [execGetField, habsent, if_neg Bool.false_ne_true]

/-- Settles O18: in the domain `FIELD` is driven with `getField`, which is R101's expression. -/
theorem getFieldMasksThenShifts : Obligations.GetFieldMasksThenShifts := by
  intro s hpresent hshift
  refine ⟨_, exec_getField_of_shift_le hpresent hshift, State.complete_status .., ?_,
    State.complete_operands ..⟩
  rw [State.complete_field, getField]

/-- Settles O19: the sentinel of decision D6 is `0xFF`. -/
theorem getFieldOfAbsentWordIsSentinel : Obligations.GetFieldOfAbsentWordIsSentinel := by
  intro s habsent
  refine ⟨_, exec_getField_of_absent habsent, State.complete_status .., ?_,
    State.complete_operands ..⟩
  rw [State.complete_field, Config.getFieldAbsent]

/-- Settles O20: in the domain `WORD_OUT` is driven with `setField`, whose big-endian value is R108's
expression. -/
theorem setFieldOrsShiftedData : Obligations.SetFieldOrsShiftedData := by
  intro s hshift
  refine ⟨_, exec_setField_of_shift_le hshift, State.complete_status .., ?_,
    State.complete_operands ..⟩
  rw [State.complete_wordOut, setField, be32_unbe32]

end Sys2Proof.Machine
end

section
/-! PROOFS. The CRC-16 Engine: the printed table against its rule (41_crc16.md R122), the table step
against the bit-serial one (R123), the residue law (R125), and the sensitivity law (R126). -/

namespace Sys2Proof

/-- Settles O24: the entries are printed constants, so each is compared with what the rule gives. -/
theorem crcTableFollowsItsRule : Obligations.CrcTableFollowsItsRule := by
  unfold Obligations.CrcTableFollowsItsRule
  decide

theorem crcShift8_xor (x y : BitVec 16) : crcShift8 (x ^^^ y) = crcShift8 x ^^^ crcShift8 y := by
  simp only [crcShift8, crcShift_xor]

theorem crcShift_of_clear {x : BitVec 16} (h : x.getLsbD 15 = false) : crcShift x = x <<< 1 := by
  rw [crcShift, h, if_neg Bool.false_ne_true]

theorem crcShift_of_set {x : BitVec 16} (h : x.getLsbD 15 = true) :
    crcShift x = x <<< 1 ^^^ Config.crcPoly := by
  rw [crcShift, h, if_pos rfl]

/-- A byte in the low half moves up without reaching bit 15, so no shift adds the polynomial. -/
theorem crcShift_byte {k : Nat} (b : Byte) (hk : k < 8) :
    crcShift (b.setWidth 16 <<< k) = b.setWidth 16 <<< (k + 1) := by
  have hclear : (b.setWidth 16 <<< k).getLsbD 15 = false := by
    rw [BitVec.getLsbD_shiftLeft, BitVec.getLsbD_setWidth, b.getLsbD_of_ge (15 - k) (by omega),
      Bool.and_false, Bool.and_false]
  rw [crcShift_of_clear hclear, ← BitVec.shiftLeft_add]

theorem crcShift8_byte (b : Byte) : crcShift8 (b.setWidth 16) = b.setWidth 16 <<< 8 := by
  have hfirst : crcShift (b.setWidth 16) = b.setWidth 16 <<< 1 := by
    simpa using crcShift_byte (k := 0) b (by decide)
  simp only [crcShift8, hfirst, crcShift_byte, Nat.reduceLT, Nat.reduceAdd]

/-- The CRC register as its two bytes, one for each half of the table step's expression. -/
theorem be16_eq_xor (v : Bytes2) :
    be16 v = v.b1.setWidth 16 ^^^ (v.b0.setWidth 16 <<< 8) := by
  apply BitVec.eq_of_getLsbD_eq
  intro i hi
  rw [be16_getLsbD, BitVec.getLsbD_xor, BitVec.getLsbD_shiftLeft, BitVec.getLsbD_setWidth,
    BitVec.getLsbD_setWidth]
  by_cases h : i < 8
  · simp [h, hi]
  · simp [h, hi, v.b1.getLsbD_of_ge i (by omega), show i - 8 < 16 by omega]

theorem be16_zero_low (b : Byte) : be16 ⟨b, 0⟩ = b.setWidth 16 <<< 8 := by
  rw [be16_eq_xor]
  exact BitVec.zero_xor

theorem be16_shiftLeft (v : Bytes2) : be16 v <<< 8 = be16 ⟨v.b1, 0⟩ := by
  rw [be16_eq_xor, BitVec.shiftLeft_xor_distrib, ← BitVec.shiftLeft_add,
    BitVec.shiftLeft_eq_zero (x := v.b0.setWidth 16) (by decide), BitVec.xor_zero, be16_zero_low]

/-- The table step on a register written as two bytes: the lower byte moves up and the upper one,
with the byte of the span, selects the table's entry (41_crc16.md R121). -/
theorem crcStep_be16 (v : Bytes2) (b : Byte) :
    crcStep (be16 v) b = be16 ⟨v.b1, 0⟩ ^^^ crcTable (v.b0 ^^^ b) := by
  have hhigh : (be16 v >>> 8).setWidth 8 = v.b0 := congrArg Bytes2.b0 (unbe16_be16 v)
  rw [crcStep, be16_shiftLeft, hhigh]

theorem crcSerialStep_be16 (v : Bytes2) (b : Byte) :
    crcSerialStep (be16 v) b = be16 ⟨v.b1, 0⟩ ^^^ crcTableRule (v.b0 ^^^ b) := by
  rw [crcSerialStep, be16_eq_xor, BitVec.xor_assoc, ← BitVec.shiftLeft_xor_distrib,
    ← BitVec.setWidth_xor, crcShift8_xor, crcShift8_byte, ← be16_zero_low, crcTableRule]

theorem crcStep_eq_crcSerialStep : crcStep = crcSerialStep := by
  funext crc b
  rw [← be16_unbe16 crc, crcStep_be16, crcSerialStep_be16, crcTableFollowsItsRule]

theorem crc16_eq_crc16Serial (span : List Byte) : crc16 span = crc16Serial span := by
  rw [crc16, crcStep_eq_crcSerialStep, crc16Serial]

theorem crc16_nil : crc16 [] = 0xFFFF := rfl

theorem crcTable_zero : crcTable 0#8 = 0#16 := rfl

/-- A byte equal to the upper half of the register selects entry 0, which is 0. -/
theorem crcStep_be16_self (v : Bytes2) : crcStep (be16 v) v.b0 = be16 ⟨v.b1, 0⟩ := by
  rw [crcStep_be16, BitVec.xor_self, crcTable_zero, BitVec.xor_zero]

/-- The first byte of the stored CRC clears the upper half of the register and moves the lower half
up, and the second byte clears that half (41_crc16.md R125). -/
theorem foldl_crcStep_toList (v : Bytes2) : v.toList.foldl crcStep (be16 v) = 0 :=
  calc crcStep (crcStep (be16 v) v.b0) v.b1
    _ = crcStep (be16 ⟨v.b1, 0⟩) v.b1 := by rw [crcStep_be16_self]
    _ = be16 ⟨0, 0⟩ := crcStep_be16_self ⟨v.b1, 0⟩
    _ = 0 := rfl

theorem crc16_append_unbe16 (span : List Byte) :
    crc16 (span ++ (unbe16 (crc16 span)).toList) = 0 := by
  rw [crc16_append]
  simpa using foldl_crcStep_toList (unbe16 (crc16 span))

/-- The polynomial has constant term 1, so a shift keeps in bit 0 the bit it moves out. -/
theorem crcShift_getLsbD_zero (x : BitVec 16) : (crcShift x).getLsbD 0 = x.getLsbD 15 := by
  cases h : x.getLsbD 15
  · simp [crcShift_of_clear h]
  · simp [crcShift_of_set h, Config.crcPoly]

theorem crcShift_injective : Function.Injective crcShift := by
  intro x y hxy
  have htop : x.getLsbD 15 = y.getLsbD 15 := by
    rw [← crcShift_getLsbD_zero, hxy, crcShift_getLsbD_zero]
  have hrest : x <<< 1 = y <<< 1 := by
    cases hy : y.getLsbD 15 with
    | false => rwa [crcShift_of_clear (htop.trans hy), crcShift_of_clear hy] at hxy
    | true =>
      rwa [crcShift_of_set (htop.trans hy), crcShift_of_set hy, BitVec.xor_left_inj] at hxy
  apply BitVec.eq_of_getLsbD_eq
  intro i hi
  obtain h | rfl : i < 15 ∨ i = 15 := by omega
  · simpa [hi, show i + 1 < 16 by omega] using congrArg (BitVec.getLsbD · (i + 1)) hrest
  · exact htop

theorem crcShift8_injective : Function.Injective crcShift8 := fun x y h => by
  simpa only [crcShift8, crcShift_injective.eq_iff] using h

theorem crcStep_injective_crc (b : Byte) : Function.Injective (crcStep · b) := by
  intro x y h
  rw [crcStep_eq_crcSerialStep] at h
  exact BitVec.xor_left_inj _ |>.1 (crcShift8_injective h)

theorem crcStep_injective_byte (crc : BitVec 16) : Function.Injective (crcStep crc) := by
  intro a b h
  rw [crcStep_eq_crcSerialStep] at h
  have hshift : a.setWidth 16 <<< 8 = b.setWidth 16 <<< 8 :=
    BitVec.xor_right_inj _ |>.1 (crcShift8_injective h)
  have hword : be16 ⟨a, 0⟩ = be16 ⟨b, 0⟩ := by
    rw [be16_zero_low, be16_zero_low, hshift]
  simpa using congrArg (Bytes2.b0 ∘ unbe16) hword

theorem foldl_crcStep_injective (span : List Byte) :
    Function.Injective (span.foldl crcStep) := by
  induction span with
  | nil => exact fun _ _ h => h
  | cons b span ih => exact ih.comp (crcStep_injective_crc b)

/-- Two spans that differ in one byte have different CRCs: the register differs after that byte and
the same bytes follow in both (41_crc16.md R126). -/
theorem crc16_set_ne {span : List Byte} {p : Nat} {b : Byte} (hp : p < span.length)
    (hb : b ≠ span[p]) : crc16 (span.set p b) ≠ crc16 span := by
  have hspan : span = span.take p ++ span[p] :: span.drop (p + 1) := by simp
  intro h
  rw [List.set_eq_take_append_cons_drop, if_pos hp, congrArg crc16 hspan, crc16_append,
    crc16_append, List.foldl_cons, List.foldl_cons] at h
  exact hb (crcStep_injective_byte _ (foldl_crcStep_injective _ h))

theorem xor_one_shiftLeft_ne {k : Nat} (b : Byte) (hk : k < 8) : b ^^^ (1#8 <<< k) ≠ b := by
  intro h
  have hbit := congrArg (BitVec.getLsbD · k) h
  simp [hk] at hbit

namespace Machine

/-- What CRC16 of a state is (41_crc16.md R120). -/
theorem exec_crc16 (s : State) :
    exec .crc16 s = .next (s.complete { s.undriven with crc := crc16 s.operands.input }) := rfl

theorem exec_crc16_crc {s t : State} (hexec : exec .crc16 s = .next t) :
    t.results.crc = crc16 s.operands.input := by
  rw [exec_crc16] at hexec
  cases hexec
  exact State.complete_crc ..

theorem crc16_flipBit_ne {span : List Byte} {p k : Nat} (hp : p < span.length) (hk : k < 8) :
    crc16 (flipBit span p k) ≠ crc16 span := by
  rw [flipBit, ← List.getElem_eq_getD (h := hp)]
  exact crc16_set_ne hp (xor_one_shiftLeft_ne _ hk)

/-- Settles O23: `CRC` is driven with `crc16`, which is the bit-serial form step by step. -/
theorem crc16EqualsBitSerialForm : Obligations.Crc16EqualsBitSerialForm := by
  intro s
  refine ⟨_, exec_crc16 s, State.complete_status .., ?_, fun hempty => ?_,
    State.complete_operands ..⟩
  · rw [State.complete_crc, crc16_eq_crc16Serial]
  · rw [State.complete_crc, hempty, crc16_nil]

/-- Settles O25: the two bytes of the stored CRC bring the register from it to 0. -/
theorem crc16ResidueIsZero : Obligations.Crc16ResidueIsZero := by
  intro s t u hexec hinput
  refine ⟨_, exec_crc16 u, ?_⟩
  rw [State.complete_crc, hinput, exec_crc16_crc hexec, crc16_append_unbe16]

/-- Settles O26: a flipped bit is another byte, and another byte gives another CRC. -/
theorem crc16DetectsEverySingleBit : Obligations.Crc16DetectsEverySingleBit := by
  intro s t u p k hp hk hexec hflipped
  rw [exec_crc16_crc hexec, exec_crc16_crc hflipped]
  exact crc16_flipBit_ne hp hk

end Machine

end Sys2Proof
end

section
/-! PROOFS. The AES-128 block primitive: each transformation of the cipher and its inverse
(43_aes128_primitive.md R177, R179), the rounds, and the two block functions (R178, R180). -/

namespace Sys2Proof

theorem invSbox_sbox : ∀ a : Byte, invSbox (sbox a) = a := by decide

theorem sbox_invSbox : ∀ a : Byte, sbox (invSbox a) = a := by decide

section
variable (s : Bytes16)

theorem invSubBytes_subBytes : invSubBytes (subBytes s) = s := by
  simp only [invSubBytes, subBytes, Bytes16.map, Bytes4.map, invSbox_sbox]

theorem subBytes_invSubBytes : subBytes (invSubBytes s) = s := by
  simp only [invSubBytes, subBytes, Bytes16.map, Bytes4.map, sbox_invSbox]

theorem invShiftRows_shiftRows : invShiftRows (shiftRows s) = s := rfl

theorem shiftRows_invShiftRows : shiftRows (invShiftRows s) = s := rfl

/-- Adding a round key twice changes nothing, so `AddRoundKey` is its own inverse. -/
theorem addRoundKey_addRoundKey (k : Bytes16) : addRoundKey (addRoundKey s k) k = s := by
  simp only [addRoundKey, Bytes16.xor, Bytes4.xor, BitVec.xor_assoc, BitVec.xor_self,
    BitVec.xor_zero]

end

theorem xor_xor_cancel_left {n : Nat} (x y : BitVec n) : x ^^^ (x ^^^ y) = y := by
  rw [← BitVec.xor_assoc, BitVec.xor_self, BitVec.zero_xor]

theorem xor_left_comm {n : Nat} (x y z : BitVec n) : x ^^^ (y ^^^ z) = y ^^^ (x ^^^ z) := by
  rw [← BitVec.xor_assoc, BitVec.xor_comm x, BitVec.xor_assoc]

theorem xtime_xor (a b : Byte) : xtime (a ^^^ b) = xtime a ^^^ xtime b := by
  simp only [xtime, BitVec.getLsbD_xor, BitVec.shiftLeft_xor_distrib]
  cases a.getLsbD 7 <;> cases b.getLsbD 7 <;>
    simp [BitVec.xor_assoc, BitVec.xor_comm, xor_left_comm]

/-! The products by the four constants of `InvMixColumns`, as sums of doublings (R172). -/

theorem gfMul_9 (a : Byte) : gfMul a 9 = a ^^^ xtime (xtime (xtime a)) := by
  simp [gfMul, gfMulBits]

theorem gfMul_11 (a : Byte) : gfMul a 11 = a ^^^ (xtime a ^^^ xtime (xtime (xtime a))) := by
  simp [gfMul, gfMulBits]

theorem gfMul_13 (a : Byte) :
    gfMul a 13 = a ^^^ (xtime (xtime a) ^^^ xtime (xtime (xtime a))) := by
  simp [gfMul, gfMulBits]

theorem gfMul_14 (a : Byte) :
    gfMul a 14 = xtime a ^^^ (xtime (xtime a) ^^^ xtime (xtime (xtime a))) := by
  simp [gfMul, gfMulBits]

/-- A byte of `MixColumns` from the four bytes of its column, its own first (R177). -/
def mixByte (a b c d : Byte) : Byte := xtime a ^^^ times3 b ^^^ c ^^^ d

/-- A byte of `InvMixColumns` from the four bytes of its column, its own first (R179). -/
def invMixByte (a b c d : Byte) : Byte := gfMul a 14 ^^^ gfMul b 11 ^^^ gfMul c 13 ^^^ gfMul d 9

/-- A byte of `MixColumns` applied twice: the square of its polynomial is `04 x^2 + 05`. -/
def mixByteTwice (a c : Byte) : Byte := a ^^^ xtime (xtime (a ^^^ c))

theorem mixByte_mixByte (a b c d : Byte) :
    mixByte (mixByte a b c d) (mixByte b c d a) (mixByte c d a b) (mixByte d a b c) =
      mixByteTwice a c := by
  simp only [mixByte, mixByteTwice, times3, xtime_xor]
  simp only [BitVec.xor_assoc, BitVec.xor_comm, xor_left_comm, xor_xor_cancel_left]

/-- `InvMixColumns` is `MixColumns` three times. -/
theorem mixByte_mixByteTwice (a b c d : Byte) :
    mixByte (mixByteTwice a c) (mixByteTwice b d) (mixByteTwice c a) (mixByteTwice d b) =
      invMixByte a b c d := by
  simp only [mixByte, mixByteTwice, invMixByte, times3, xtime_xor, gfMul_9, gfMul_11, gfMul_13,
    gfMul_14]
  simp only [BitVec.xor_assoc, BitVec.xor_comm, xor_left_comm, xor_xor_cancel_left]

/-- The sum that is doubled keeps its value, so the square undoes itself. -/
theorem mixByteTwice_mixByteTwice (a c : Byte) :
    mixByteTwice (mixByteTwice a c) (mixByteTwice c a) = a := by
  have hsum : mixByteTwice a c ^^^ mixByteTwice c a = a ^^^ c := by
    rw [mixByteTwice, mixByteTwice, BitVec.xor_comm c a, BitVec.xor_assoc, BitVec.xor_comm c,
      xor_xor_cancel_left]
  rw [mixByteTwice, hsum, mixByteTwice, BitVec.xor_assoc, BitVec.xor_self, BitVec.xor_zero]

/-- `MixColumns` of one column, twice. -/
def mixColumnTwice (a : Bytes4) : Bytes4 :=
  ⟨mixByteTwice a.b0 a.b2, mixByteTwice a.b1 a.b3, mixByteTwice a.b2 a.b0, mixByteTwice a.b3 a.b1⟩

section
variable (a : Bytes4)

theorem mixColumn_eq :
    mixColumn a = ⟨mixByte a.b0 a.b1 a.b2 a.b3, mixByte a.b1 a.b2 a.b3 a.b0,
      mixByte a.b2 a.b3 a.b0 a.b1, mixByte a.b3 a.b0 a.b1 a.b2⟩ := by
  simp only [mixColumn, mixByte, Bytes4.mk.injEq]
  simp only [BitVec.xor_assoc, BitVec.xor_comm, xor_left_comm, and_self]

theorem invMixColumn_eq :
    invMixColumn a = ⟨invMixByte a.b0 a.b1 a.b2 a.b3, invMixByte a.b1 a.b2 a.b3 a.b0,
      invMixByte a.b2 a.b3 a.b0 a.b1, invMixByte a.b3 a.b0 a.b1 a.b2⟩ := by
  simp only [invMixColumn, invMixByte, Bytes4.mk.injEq]
  simp only [BitVec.xor_assoc, BitVec.xor_comm, xor_left_comm, and_self]

theorem mixColumn_mixColumn : mixColumn (mixColumn a) = mixColumnTwice a := by
  simp only [mixColumn_eq, mixByte_mixByte, mixColumnTwice]

theorem mixColumn_mixColumnTwice : mixColumn (mixColumnTwice a) = invMixColumn a := by
  simp only [mixColumn_eq, invMixColumn_eq, mixColumnTwice, mixByte_mixByteTwice]

theorem mixColumnTwice_mixColumnTwice : mixColumnTwice (mixColumnTwice a) = a := by
  simp only [mixColumnTwice, mixByteTwice_mixByteTwice]

/-- `MixColumns` four times is the identity. -/
theorem invMixColumn_mixColumn : invMixColumn (mixColumn a) = a := by
  rw [← mixColumn_mixColumnTwice, ← mixColumn_mixColumn, mixColumn_mixColumn,
    mixColumn_mixColumn, mixColumnTwice_mixColumnTwice]

theorem mixColumn_invMixColumn : mixColumn (invMixColumn a) = a := by
  rw [← mixColumn_mixColumnTwice, mixColumn_mixColumn, mixColumnTwice_mixColumnTwice]

end

theorem invMixColumns_mixColumns (s : Bytes16) : invMixColumns (mixColumns s) = s := by
  simp only [invMixColumns, mixColumns, invMixColumn_mixColumn]

theorem mixColumns_invMixColumns (s : Bytes16) : mixColumns (invMixColumns s) = s := by
  simp only [invMixColumns, mixColumns, mixColumn_invMixColumn]

section
variable (k : Bytes16)

/-- The inverse rounds undo the rounds; R180's rounds begin between `ShiftRows` and `SubBytes` of a
round of R178, so the two transformations stand on both sides. -/
theorem decRounds_encRounds (n : Nat) (s : Bytes16) :
    decRounds k n (shiftRows (subBytes (encRounds k n s))) = shiftRows (subBytes s) := by
  induction n with
  | zero => rfl
  | succ n ih =>
    rw [encRounds, decRounds, invShiftRows_shiftRows, invSubBytes_subBytes,
      addRoundKey_addRoundKey, invMixColumns_mixColumns, ih]

theorem encRounds_decRounds (n : Nat) (s : Bytes16) :
    encRounds k n (invSubBytes (invShiftRows (decRounds k n s))) =
      invSubBytes (invShiftRows s) := by
  induction n generalizing s with
  | zero => rfl
  | succ n ih =>
    rw [encRounds, decRounds, ih, subBytes_invSubBytes, shiftRows_invShiftRows,
      mixColumns_invMixColumns, addRoundKey_addRoundKey]

/-- The first law of R142 (42_aes_pkcs7.md). -/
theorem aesDecBlock_aesEncBlock (b : Bytes16) : aesDecBlock k (aesEncBlock k b) = b := by
  rw [aesDecBlock, aesEncBlock, addRoundKey_addRoundKey, decRounds_encRounds,
    invShiftRows_shiftRows, invSubBytes_subBytes, addRoundKey_addRoundKey]

/-- The second law of R142 (42_aes_pkcs7.md). -/
theorem aesEncBlock_aesDecBlock (b : Bytes16) : aesEncBlock k (aesDecBlock k b) = b := by
  rw [aesDecBlock, aesEncBlock, addRoundKey_addRoundKey, encRounds_decRounds,
    subBytes_invSubBytes, shiftRows_invShiftRows, addRoundKey_addRoundKey]

end

end Sys2Proof
end

section
/-! PROOFS. The AES engine: its blocks, its padding, and its two operations (42_aes_pkcs7.md R144,
R152, R155). -/

namespace Sys2Proof

/-- Block `j` of a sequence of blocks written out. -/
theorem ofList_block_ofBlocks {l : List Bytes16} {j : Nat} (hj : j < l.length) :
    Bytes16.ofList (((ofBlocks l).drop (16 * j)).take 16) = l[j] := by
  rw [← toBlocks_getElem l.length j _ (by rwa [toBlocks_length])]
  simp only [toBlocks_ofBlocks]

theorem ofList_block_map_toBlocks (f : Bytes16 → Bytes16) {n j : Nat} (l : List Byte)
    (hj : j < n) :
    Bytes16.ofList (((ofBlocks ((toBlocks n l).map f)).drop (16 * j)).take 16) =
      f (Bytes16.ofList ((l.drop (16 * j)).take 16)) := by
  rw [ofList_block_ofBlocks (by rwa [List.length_map, toBlocks_length]), List.getElem_map,
    toBlocks_getElem]

/-- A span of whole blocks is fixed by its blocks. -/
theorem eq_ofBlocks_of_blocks {n : Nat} {plain l : List Byte} {f : Bytes16 → Bytes16}
    (hlength : plain.length = 16 * n)
    (hblocks : ∀ j < n, Bytes16.ofList ((plain.drop (16 * j)).take 16) =
      f (Bytes16.ofList ((l.drop (16 * j)).take 16))) :
    plain = ofBlocks ((toBlocks n l).map f) := by
  have hsame : toBlocks n plain = (toBlocks n l).map f := by
    refine List.ext_getElem (by simp) fun j hj _ => ?_
    rw [toBlocks_getElem, List.getElem_map, toBlocks_getElem]
    exact hblocks j (by rwa [toBlocks_length] at hj)
  rw [← hsame, ofBlocks_toBlocks hlength]

/-- Blocks transformed one by one, and back by an inverse. -/
theorem map_toBlocks_ofBlocks_map {f g : Bytes16 → Bytes16} (hinverse : ∀ b, g (f b) = b) {n : Nat}
    {l : List Byte} (hl : l.length = 16 * n) :
    ofBlocks ((toBlocks n (ofBlocks ((toBlocks n l).map f))).map g) = l := by
  have hblocks := toBlocks_ofBlocks ((toBlocks n l).map f)
  rw [List.length_map, toBlocks_length] at hblocks
  have hcomp : g ∘ f = id := funext hinverse
  rw [hblocks, List.map_map, hcomp, List.map_id, ofBlocks_toBlocks hl]

theorem aesEncrypt_eq (key : Bytes16) (input : List Byte) :
    aesEncrypt key input =
      ofBlocks ((toBlocks (input.length / 16 + 1) (pkcs7Pad input)).map (aesEncBlock key)) := by
  have hcount : (pkcs7Pad input).length / Config.block = input.length / 16 + 1 := by
    rw [pkcs7Pad_length, Config.block, Nat.mul_div_cancel_left _ (by decide)]
  rw [aesEncrypt, hcount]

theorem aesDecryptBlocks_aesEncrypt (key : Bytes16) (input : List Byte) :
    aesDecryptBlocks key (aesEncrypt key input) = pkcs7Pad input := by
  have hcount : (aesEncrypt key input).length / Config.block = input.length / 16 + 1 := by
    rw [aesEncrypt_length, Config.block, Nat.mul_div_cancel_left _ (by decide)]
  rw [aesDecryptBlocks, hcount, aesEncrypt_eq]
  exact map_toBlocks_ofBlocks_map (aesDecBlock_aesEncBlock key) (pkcs7Pad_length input)

/-- The last byte of a span, when it is a count, as R152 reads it. -/
theorem lastByte_toNat {plain : List Byte} {pad : Nat}
    (hlast : plain.getLast? = some (BitVec.ofNat 8 pad)) (hpad : pad < 256) :
    (plain.getD (plain.length - 1) 0).toNat = pad := by
  rw [List.getD_eq_getElem?_getD, ← List.getLast?_eq_getElem?, hlast, Option.getD_some,
    BitVec.toNat_ofNat, Nat.mod_eq_of_lt hpad]

/-- The last `pad` bytes are all `pad`: as the bytes of the padding, and as a test of each. -/
theorem drop_eq_replicate_iff {plain : List Byte} {pad : Nat} (hlength : pad ≤ plain.length)
    (hpad : pad < 256) :
    plain.drop (plain.length - pad) = List.replicate pad (BitVec.ofNat 8 pad) ↔
      ∀ b ∈ plain.drop (plain.length - pad), b.toNat = pad := by
  have hbyte : ∀ b : Byte, b = BitVec.ofNat 8 pad ↔ b.toNat = pad := fun b => by
    rw [← BitVec.toNat_inj, BitVec.toNat_ofNat, Nat.mod_eq_of_lt hpad]
  simp only [List.eq_replicate_iff, hbyte, List.length_drop, Nat.sub_sub_self hlength, true_and]

/-- The padding that R152 accepts: 1 to 16 bytes of that value. -/
def ValidPadding (plain : List Byte) (pad : Nat) : Prop :=
  1 ≤ pad ∧ pad ≤ 16 ∧
    plain.drop (plain.length - pad) = List.replicate pad (BitVec.ofNat 8 pad)

/-- Stripping fails with `InvalidPadding` only (42_aes_pkcs7.md R151). -/
theorem pkcs7Strip_error {plain : List Byte} {e : ErrorKind} (h : pkcs7Strip plain = .error e) :
    e = .invalidPadding := by
  simp only [pkcs7Strip, bind_eq_error, check_eq_error] at h
  obtain ⟨-, rfl⟩ | ⟨-, -, ⟨-, rfl⟩ | ⟨-, -, h⟩⟩ := h
  · rfl
  · rfl
  · cases h

section
variable {plain : List Byte} {pad : Nat} (hlength : 16 ≤ plain.length)
  (hlast : plain.getLast? = some (BitVec.ofNat 8 pad)) (hpad : pad < 256)
include hlength hlast hpad

/-- Stripping with the last byte known (42_aes_pkcs7.md R152). -/
theorem pkcs7Strip_eq_ok_iff {out : List Byte} :
    pkcs7Strip plain = .ok out ↔
      ValidPadding plain pad ∧ out = plain.take (plain.length - pad) := by
  rw [pkcs7Strip_eq_ok, lastByte_toNat hlast hpad]
  constructor
  · rintro ⟨_, rfl, hpos, hle, hbytes, rfl⟩
    exact ⟨⟨hpos, hle, (drop_eq_replicate_iff (hle.trans hlength) hpad).2 hbytes⟩, rfl⟩
  · rintro ⟨⟨hpos, hle, hbytes⟩, rfl⟩
    exact ⟨pad, rfl, hpos, hle, (drop_eq_replicate_iff (hle.trans hlength) hpad).1 hbytes, rfl⟩

theorem pkcs7Strip_of_validPadding (hvalid : ValidPadding plain pad) :
    pkcs7Strip plain = .ok (plain.take (plain.length - pad)) :=
  (pkcs7Strip_eq_ok_iff hlength hlast hpad).2 ⟨hvalid, rfl⟩

theorem pkcs7Strip_of_not_validPadding (hinvalid : ¬ ValidPadding plain pad) :
    pkcs7Strip plain = .error .invalidPadding := by
  cases hstrip : pkcs7Strip plain with
  | ok out =>
    obtain ⟨hvalid, -⟩ := (pkcs7Strip_eq_ok_iff hlength hlast hpad).1 hstrip
    exact absurd hvalid hinvalid
  | error e => rw [pkcs7Strip_error hstrip]

end

theorem padCount_pos (n : Nat) : 0 < padCount n := by
  rw [padCount, Config.block]
  omega

theorem padCount_le (n : Nat) : padCount n ≤ 16 := Nat.sub_le _ _

/-- The padding is stripped again, for every span (42_aes_pkcs7.md R155). -/
theorem pkcs7Strip_pkcs7Pad (input : List Byte) : pkcs7Strip (pkcs7Pad input) = .ok input := by
  have hpos := padCount_pos input.length
  have hle := padCount_le input.length
  have hdrop : (pkcs7Pad input).length - padCount input.length = input.length := by
    rw [pkcs7Pad, List.length_append, List.length_replicate, Nat.add_sub_cancel]
  have hlast : (pkcs7Pad input).getLast? = some (BitVec.ofNat 8 (padCount input.length)) := by
    rw [pkcs7Pad, List.getLast?_append, List.getLast?_replicate, if_neg hpos.ne', Option.some_or]
  have hvalid : ValidPadding (pkcs7Pad input) (padCount input.length) :=
    ⟨hpos, hle, by rw [hdrop, pkcs7Pad, List.drop_left]⟩
  rw [pkcs7Strip_of_validPadding (by rw [pkcs7Pad_length]; omega) hlast (by omega) hvalid, hdrop,
    pkcs7Pad, List.take_left]

/-- What was stripped from whole blocks is what padding puts back (42_aes_pkcs7.md R155). -/
theorem pkcs7Pad_of_pkcs7Strip {plain out : List Byte} (hpos : plain.length ≠ 0)
    (hwhole : plain.length % 16 = 0) (hstrip : pkcs7Strip plain = .ok out) :
    pkcs7Pad out = plain := by
  obtain ⟨pad, -, hpad, hle, hbytes, rfl⟩ := pkcs7Strip_eq_ok.1 hstrip
  have hcount : padCount (plain.take (plain.length - pad)).length = pad := by
    rw [padCount, Config.block, List.length_take]
    omega
  rw [pkcs7Pad, hcount, ← (drop_eq_replicate_iff (by omega) (by omega)).2 hbytes,
    List.take_append_drop]

/-- A whole span whose decrypted blocks are `plain` is judged by the padding of `plain` alone. -/
theorem aesDecrypt_eq_pkcs7Strip {key : Bytes16} {input plain : List Byte}
    (hpos : input.length ≠ 0) (hwhole : input.length % 16 = 0)
    (hlength : plain.length = input.length)
    (hblocks : ∀ j < input.length / 16, Bytes16.ofList ((plain.drop (16 * j)).take 16) =
      aesDecBlock key (Bytes16.ofList ((input.drop (16 * j)).take 16))) :
    aesDecrypt key input = pkcs7Strip plain := by
  have hcount : plain.length = 16 * (input.length / 16) := by omega
  have hplain : plain = aesDecryptBlocks key input := eq_ofBlocks_of_blocks hcount hblocks
  rw [aesDecrypt, ← hplain]
  simp [hpos, hwhole, Config.block]

/-- AES_DECRYPT undoes AES_ENCRYPT on spans (42_aes_pkcs7.md R155). -/
theorem aesDecrypt_aesEncrypt (key : Bytes16) (input : List Byte) :
    aesDecrypt key (aesEncrypt key input) = .ok input := by
  have hlength := aesEncrypt_length key input
  refine aesDecrypt_eq_ok.2 ⟨by omega, by omega, ?_⟩
  rw [aesDecryptBlocks_aesEncrypt, pkcs7Strip_pkcs7Pad]

/-- AES_ENCRYPT undoes AES_DECRYPT on spans (42_aes_pkcs7.md R155). -/
theorem aesEncrypt_of_aesDecrypt {key : Bytes16} {input out : List Byte}
    (h : aesDecrypt key input = .ok out) : aesEncrypt key out = input := by
  obtain ⟨hpos, hwhole, hstrip⟩ := aesDecrypt_eq_ok.1 h
  have hlength := aesDecryptBlocks_length (key := key) hwhole
  have hpadded : pkcs7Pad out = aesDecryptBlocks key input :=
    pkcs7Pad_of_pkcs7Strip (by rwa [hlength]) (by rwa [hlength]) hstrip
  rw [aesEncrypt, hpadded, hlength]
  exact map_toBlocks_ofBlocks_map (aesEncBlock_aesDecBlock key)
    (Nat.mul_div_cancel' (Nat.dvd_of_mod_eq_zero hwhole)).symm

namespace Machine

/-- What AES_ENCRYPT of a state is (42_aes_pkcs7.md R144). -/
theorem exec_aesEncrypt (s : State) :
    exec .aesEncrypt s =
      .next (s.complete { s.undriven with out := aesEncrypt s.operands.key s.operands.input }) :=
  rfl

/-- What AES_DECRYPT of a state is (42_aes_pkcs7.md R152). -/
theorem exec_aesDecrypt (s : State) :
    exec .aesDecrypt s =
      .next (s.conclude (aesDecrypt s.operands.key s.operands.input)
        (fun r out => { r with out := out })) :=
  rfl

theorem exec_aesDecrypt_of_ok {s : State} {out : List Byte}
    (h : aesDecrypt s.operands.key s.operands.input = .ok out) :
    exec .aesDecrypt s = .next (s.complete { s.undriven with out := out }) := by
  rw [exec_aesDecrypt, h, State.conclude_ok]

theorem exec_aesDecrypt_of_error {s : State} {kind : ErrorKind}
    (h : aesDecrypt s.operands.key s.operands.input = .error kind) :
    exec .aesDecrypt s = .next (s.raise kind) := by
  rw [exec_aesDecrypt, h, State.conclude_error]

theorem exec_aesEncrypt_out {s t : State} (hexec : exec .aesEncrypt s = .next t) :
    t.results.out = aesEncrypt s.operands.key s.operands.input := by
  rw [exec_aesEncrypt] at hexec
  cases hexec
  exact State.complete_out ..

/-- When AES_DECRYPT ends with `Ok`, `OUT` is the plaintext (42_aes_pkcs7.md R152). -/
theorem exec_aesDecrypt_ok {s t : State} (hexec : exec .aesDecrypt s = .next t)
    (hok : t.results.status = .ok) :
    aesDecrypt s.operands.key s.operands.input = .ok t.results.out := by
  rw [exec_aesDecrypt] at hexec
  cases hexec
  obtain ⟨out, hout⟩ := (State.conclude_status_ok_iff ..).1 hok
  rw [hout, State.conclude_ok, State.complete_out]

/-- Settles O30: the length test is the first of AES_DECRYPT. -/
theorem aesDecryptRejectsBadLength : Obligations.AesDecryptRejectsBadLength := by
  intro s hbad
  exact ⟨_, exec_aesDecrypt_of_error (aesDecrypt_eq_error.2 (.inl ⟨hbad, rfl⟩)),
    s.raise_status _, s.raise_operands _⟩

/-- Settles O29: the blocks of `OUT` are those of the padded span, encrypted one by one. -/
theorem aesEncryptPadsThenEncryptsBlocks : Obligations.AesEncryptPadsThenEncryptsBlocks := by
  intro s
  refine ⟨_, exec_aesEncrypt s, State.complete_status .., ?_, fun j hj => ?_,
    State.complete_operands ..⟩
  · rw [State.complete_out, aesEncrypt_length]
  · rw [State.complete_out, aesEncrypt_eq]
    exact ofList_block_map_toBlocks _ _ hj

/-- Settles O31: the length test, then the padding of the decrypted blocks. -/
theorem aesDecryptValidatesPadding : Obligations.AesDecryptValidatesPadding := by
  intro s
  refine ⟨_, exec_aesDecrypt s, State.conclude_operands .., fun hbad => ?_,
    fun plain pad hpos hwhole hlength hblocks hlast hpad => ?_⟩
  · exact (State.conclude_status_error_iff ..).2 (aesDecrypt_eq_error.2 (.inl ⟨hbad, rfl⟩))
  · have hlong : 16 ≤ plain.length := by omega
    rw [aesDecrypt_eq_pkcs7Strip hpos hwhole hlength hblocks]
    split_ifs with hvalid
    · rw [pkcs7Strip_of_validPadding hlong hlast hpad hvalid]
      exact ⟨State.complete_status .., State.complete_out ..⟩
    · rw [pkcs7Strip_of_not_validPadding hlong hlast hpad hvalid]
      exact State.raise_status ..

/-- Settles O32: the block functions are mutually inverse, and so are the padding and its
stripping. -/
theorem aesDecryptUndoesAesEncrypt : Obligations.AesDecryptUndoesAesEncrypt := by
  constructor
  · intro s t u hexec hkey hinput
    have hplain : aesDecrypt u.operands.key u.operands.input = .ok s.operands.input := by
      rw [hkey, hinput, exec_aesEncrypt_out hexec, aesDecrypt_aesEncrypt]
    exact ⟨_, exec_aesDecrypt_of_ok hplain, State.complete_status .., State.complete_out ..⟩
  · intro s t u hexec hok hkey hinput
    refine ⟨_, exec_aesEncrypt u, State.complete_status .., ?_⟩
    rw [State.complete_out, hkey, hinput, aesEncrypt_of_aesDecrypt (exec_aesDecrypt_ok hexec hok)]

end Machine

end Sys2Proof
end

section
/-! PROOFS. The AES S-box: its affine map, and the field inverse that its entries hold
(43_aes128_primitive.md R172, R173, R174). -/

namespace Sys2Proof

/-- Bit `i` comes from `n` places below it; modulo 8 that is `7 * n` places above. -/
theorem rotateLeft_getLsbD {i : Nat} (x : Byte) (n : Nat) (hi : i < 8) :
    (x.rotateLeft n).getLsbD i = x.getLsbD ((i + 7 * n) % 8) := by
  rw [BitVec.getLsbD_rotateLeft, Bool.cond_decide, decide_eq_true hi, Bool.true_and]
  split_ifs <;> congr 1 <;> omega

theorem rotateLeft_xor (x y : Byte) (n : Nat) :
    (x ^^^ y).rotateLeft n = x.rotateLeft n ^^^ y.rotateLeft n := by
  apply BitVec.eq_of_getLsbD_eq
  intro i hi
  simp only [rotateLeft_getLsbD, BitVec.getLsbD_xor, hi]

theorem rotateLeft_rotateLeft (x : Byte) (m n : Nat) :
    (x.rotateLeft m).rotateLeft n = x.rotateLeft ((m + n) % 8) := by
  apply BitVec.eq_of_getLsbD_eq
  intro i hi
  rw [rotateLeft_getLsbD _ _ hi, rotateLeft_getLsbD _ _ (Nat.mod_lt _ (by decide)),
    rotateLeft_getLsbD _ _ hi]
  congr 1
  omega

theorem rotateLeft_zero (x : Byte) : x.rotateLeft 0 = x := by
  apply BitVec.eq_of_getLsbD_eq
  intro i hi
  rw [rotateLeft_getLsbD _ _ hi, Nat.mul_zero, Nat.add_zero, Nat.mod_eq_of_lt hi]

/-- The affine map of the S-box turned round (R173). Its rotations are the inverse of those of
`sboxAffine`, as polynomials in the rotation by one place modulo `x^8 + 1`. -/
def sboxAffineInv (c : Byte) : Byte :=
  c.rotateLeft 1 ^^^ c.rotateLeft 3 ^^^ c.rotateLeft 6 ^^^ 0x05

/-- Of the fifteen rotations of `c` the one by 8 places remains; the others cancel in pairs. -/
theorem sboxAffine_sboxAffineInv (c : Byte) : sboxAffine (sboxAffineInv c) = c := by
  simp [sboxAffine, sboxAffineInv, rotateLeft_xor, rotateLeft_rotateLeft, rotateLeft_zero,
    BitVec.xor_assoc, BitVec.xor_comm, xor_left_comm]

/-- What the affine map takes to the S-box entry of a byte; by R173 the byte's inverse in the field
(R172). -/
def sboxInverse (a : Byte) : Byte := sboxAffineInv (sbox a)

theorem sboxAffine_sboxInverse (a : Byte) : sboxAffine (sboxInverse a) = sbox a :=
  sboxAffine_sboxAffineInv _

theorem sboxInverse_zero : sboxInverse 0 = 0 := rfl

/-- The entries are printed constants, so each is multiplied out. -/
theorem gfMul_sboxInverse : ∀ a : Byte, a ≠ 0 → gfMul a (sboxInverse a) = 1 := by decide

/-- Settles O27: the byte that the affine map takes to the entry is the byte's inverse in the
field. -/
theorem sboxFollowsItsFormula : Obligations.SboxFollowsItsFormula := by
  intro a
  refine ⟨sboxInverse a, ?_, (sboxAffine_sboxInverse a).symm, invSbox_sbox a⟩
  split_ifs with ha
  · rw [ha, sboxInverse_zero]
  · exact gfMul_sboxInverse a ha

end Sys2Proof
end

section
/-! PROOFS. The ARIS Marker Cipher (44_aris_marker.md R202 to R206). Its off test changes no result
(R204), so the candidate and the encrypted marker are two translations of the four bytes, each the
inverse of the other. -/

namespace Sys2Proof

theorem Bytes4.map_sub_eq_iff {v w : Bytes4} {b : Byte} :
    v.map (fun x => x - b) = w ↔ v = w.map (fun x => x + b) := by
  cases v
  cases w
  simp only [Bytes4.map, Bytes4.mk.injEq, sub_eq_iff_eq_add]

/-- Taking 0 changes nothing, so the off test does not show in the result (R204). -/
theorem arisCandidate_eq_map (key : Bytes16) (marker : Bytes4) :
    arisCandidate key marker = marker.map (fun b => b - key.last) := by
  unfold arisCandidate
  split_ifs with hlast
  · rfl
  · simp [Bytes4.map, Decidable.not_not.1 hlast]

/-- Adding 0 changes nothing, so the off test does not show in the result (R204). -/
theorem arisEncrypt_eq_map (key : Bytes16) (marker : Bytes4) :
    arisEncrypt key marker = marker.map (fun b => b + key.last) := by
  unfold arisEncrypt
  split_ifs with hlast
  · rfl
  · simp [Bytes4.map, Decidable.not_not.1 hlast]

/-- Under one key the two transforms are inverse to each other. -/
theorem arisCandidate_eq_iff {key : Bytes16} {marker m : Bytes4} :
    arisCandidate key marker = m ↔ marker = arisEncrypt key m := by
  rw [arisCandidate_eq_map, arisEncrypt_eq_map, Bytes4.map_sub_eq_iff]

/-- The law R206 (a). -/
theorem arisCandidate_arisEncrypt (key : Bytes16) (marker : Bytes4) :
    arisCandidate key (arisEncrypt key marker) = marker :=
  arisCandidate_eq_iff.2 rfl

/-- Of a known marker, encrypted, the first byte tells the key byte. -/
theorem arisEncrypt_eq_arisEncrypt_iff {k₁ k₂ : Bytes16} {marker : Bytes4} :
    arisEncrypt k₁ marker = arisEncrypt k₂ marker ↔ k₁.last = k₂.last := by
  rw [arisEncrypt_eq_map, arisEncrypt_eq_map]
  constructor
  · intro h
    exact add_left_cancel (congrArg Bytes4.b0 h)
  · intro h
    rw [h]

namespace Machine

/-- What ARIS_ENCRYPT of a state is (R203). -/
theorem exec_arisEncrypt (s : State) :
    exec .arisEncrypt s =
      .next (s.complete { s.undriven with
        markerOut := arisEncrypt s.operands.key s.operands.marker }) :=
  rfl

/-- What ARIS_DECRYPT of a state is (R202). -/
theorem exec_arisDecrypt (s : State) :
    exec .arisDecrypt s =
      .next (s.conclude (arisDecrypt s.operands.key s.operands.marker) (fun r _ => r)) :=
  rfl

theorem exec_arisEncrypt_markerOut {s t : State} (hexec : exec .arisEncrypt s = .next t) :
    t.results.markerOut = arisEncrypt s.operands.key s.operands.marker := by
  rw [exec_arisEncrypt] at hexec
  cases hexec
  exact State.complete_markerOut ..

/-- The status of ARIS_DECRYPT is decided by the candidate alone (R202). -/
theorem exec_arisDecrypt_status {s t : State} (hexec : exec .arisDecrypt s = .next t) :
    t.results.status =
      if arisCandidate s.operands.key s.operands.marker = Config.arisLiteral then .ok
      else .error .notSameAris := by
  rw [exec_arisDecrypt] at hexec
  cases hexec
  split_ifs with hliteral
  · exact (State.conclude_status_ok_iff ..).2 ⟨(), arisDecrypt_eq_ok.2 hliteral⟩
  · exact (State.conclude_status_error_iff ..).2
      (check_eq_error.2 ⟨beq_eq_false_iff_ne.2 hliteral, rfl⟩)

/-- ARIS_DECRYPT accepts the encrypted literal and no other marker (R205 (b)). -/
theorem exec_arisDecrypt_ok_iff {s t : State} (hexec : exec .arisDecrypt s = .next t) :
    t.results.status = .ok ↔
      s.operands.marker = arisEncrypt s.operands.key Config.arisLiteral := by
  rw [exec_arisDecrypt_status hexec, ← arisCandidate_eq_iff]
  split_ifs with hliteral
  · exact iff_of_true rfl hliteral
  · exact iff_of_false nofun hliteral

/-- Settles O33: `MARKER_OUT` is driven with `arisEncrypt`, which is R203's expression. -/
theorem arisEncryptAddsLastKeyByte : Obligations.ArisEncryptAddsLastKeyByte := by
  intro s
  exact ⟨_, exec_arisEncrypt s, State.complete_status .., State.complete_markerOut ..,
    State.complete_operands ..⟩

/-- Settles O34: the test of the candidate, and the one marker that passes it, in which the off test
does not show. -/
theorem arisDecryptAcceptsExactlyOneMarker : Obligations.ArisDecryptAcceptsExactlyOneMarker := by
  intro s
  have hexec := exec_arisDecrypt s
  refine ⟨_, hexec, State.conclude_operands .., exec_arisDecrypt_status hexec, ?_⟩
  rw [exec_arisDecrypt_ok_iff hexec, arisEncrypt_eq_map]
  rfl

/-- Settles O35: ARIS_DECRYPT compares the encrypted marker with the encrypted literal; under one key
encryption can be undone, and of the literal it tells the key byte. -/
theorem arisRoundTripNeedsLiteralAndKeyByte : Obligations.ArisRoundTripNeedsLiteralAndKeyByte := by
  intro s t u hexec hmarker
  rw [exec_arisEncrypt_markerOut hexec] at hmarker ⊢
  refine ⟨?_, _, exec_arisDecrypt u, fun hkey => ?_, fun hliteral => ?_⟩
  · rw [← arisCandidate_eq_map, arisCandidate_arisEncrypt]
  · rw [exec_arisDecrypt_ok_iff (exec_arisDecrypt u), hmarker, hkey, ← arisCandidate_eq_iff,
      arisCandidate_arisEncrypt]
    rfl
  · rw [exec_arisDecrypt_ok_iff (exec_arisDecrypt u), hmarker, hliteral]
    exact arisEncrypt_eq_arisEncrypt_iff

end Machine

end Sys2Proof
end

section
/-! PROOFS. The first two checks of DECODE (45_frame_decoder.md R222, R223), and that the key enters
by the marker check alone (R238). -/

namespace Sys2Proof.Machine

theorem readBytes4_middle (a : List Byte) (v : Bytes4) (b : List Byte) :
    readBytes4 (a ++ (v.toList ++ b)) a.length = .ok v :=
  map_eq_ok.2 ⟨v.toList, memRead_middle a v.toList b, Bytes4.ofList_toList v⟩

theorem readBytes4_zero (v : Bytes4) (b : List Byte) : readBytes4 (v.toList ++ b) 0 = .ok v :=
  readBytes4_middle [] v b

/-- The marker check refuses every marker but the encrypted literal (45_frame_decoder.md R223,
44_aris_marker.md R205 (b)). -/
theorem arisDecrypt_of_ne {key : Bytes16} {marker : Bytes4}
    (hmarker : marker ≠ arisEncrypt key Config.arisLiteral) :
    arisDecrypt key marker = .error .notSameAris :=
  check_eq_error.2 ⟨beq_eq_false_iff_ne.2 (mt arisCandidate_eq_iff.1 hmarker), rfl⟩

/-- Of the key the marker check looks at the last byte only (44_aris_marker.md R202). -/
theorem arisDecrypt_congr {k k' : Bytes16} (hlast : k.last = k'.last) (marker : Bytes4) :
    arisDecrypt k marker = arisDecrypt k' marker := by
  rw [arisDecrypt, arisDecrypt, arisCandidate_eq_map, arisCandidate_eq_map, hlast]

section
variable {key : Bytes16} {netid : Bytes4}

theorem decodeFrame_of_id_missing {input : List Byte} (hshort : input.length < 4) :
    decodeFrame input key netid = .error .bufferOverflow := by
  rw [decodeFrame, readBytes4_eq_error.2 ⟨hshort, rfl⟩, error_bind]

/-- The id is compared before anything beyond it is read (45_frame_decoder.md R222). -/
theorem decodeFrame_of_id_ne {id : Bytes4} (hid : id ≠ netid) (rest : List Byte) :
    decodeFrame (id.toList ++ rest) key netid = .error .notSameId := by
  rw [decodeFrame, readBytes4_zero, ok_bind, beq_false_of_ne hid, check_false, error_bind]

theorem decodeFrame_of_marker_missing {rest : List Byte} (hshort : rest.length < 4) :
    decodeFrame (netid.toList ++ rest) key netid = .error .bufferOverflow := by
  have hread : readBytes4 (netid.toList ++ rest) 4 = .error .bufferOverflow :=
    readBytes4_eq_error.2 ⟨List.length_append ▸ Nat.add_lt_add_left hshort 4, rfl⟩
  rw [decodeFrame, readBytes4_zero, ok_bind, beq_self_eq_true, check_true, ok_bind, hread,
    error_bind]

/-- The marker is compared before the control word is read (45_frame_decoder.md R223). -/
theorem decodeFrame_of_marker_ne {marker : Bytes4}
    (hmarker : marker ≠ arisEncrypt key Config.arisLiteral) (rest : List Byte) :
    decodeFrame (netid.toList ++ (marker.toList ++ rest)) key netid = .error .notSameAris := by
  have hread : readBytes4 (netid.toList ++ (marker.toList ++ rest)) 4 = .ok marker :=
    readBytes4_middle netid.toList marker rest
  rw [decodeFrame, readBytes4_zero, ok_bind, beq_self_eq_true, check_true, ok_bind, hread, ok_bind,
    arisDecrypt_of_ne hmarker, error_bind]

end

/-- Keys with the same last byte decode every span alike (45_frame_decoder.md R238). -/
theorem decodeFrame_congr_key {k k' : Bytes16} (hlast : k.last = k'.last) (input : List Byte)
    (netid : Bytes4) : decodeFrame input k netid = decodeFrame input k' netid := by
  unfold decodeFrame
  simp only [arisDecrypt_congr hlast]

/-- An error of the frame decoder is the status of DECODE (60_exceptions.md R345). -/
theorem conclude_decodeFrame_status {s : State} {input : List Byte} {kind : ErrorKind}
    {drive : ResultPorts → RawFrame × Nat → ResultPorts} (hinput : s.operands.input = input)
    (herror : decodeFrame input s.operands.key s.operands.netid = .error kind) :
    (s.conclude (decodeFrame s.operands.input s.operands.key s.operands.netid) drive).results.status
      = .error kind :=
  (State.conclude_status_error_iff ..).2 (hinput ▸ herror)

/-- Settles O38: each clause is one error of the frame decoder, the marker expected being the
encrypted literal. -/
theorem decodeChecksIdThenMarker : Obligations.DecodeChecksIdThenMarker := by
  intro s
  refine ⟨_, exec_decode s, State.conclude_operands .., fun hshort => ?_,
    fun id rest hinput hid => ?_, fun rest hinput hshort => ?_,
    fun marker rest hinput hmarker => ?_⟩
  · exact conclude_decodeFrame_status rfl (decodeFrame_of_id_missing hshort)
  · exact conclude_decodeFrame_status hinput (decodeFrame_of_id_ne hid rest)
  · exact conclude_decodeFrame_status hinput (decodeFrame_of_marker_missing hshort)
  · have hliteral : marker ≠ arisEncrypt s.operands.key Config.arisLiteral := by
      rw [arisEncrypt_eq_map]
      exact hmarker
    rw [List.append_assoc] at hinput
    exact conclude_decodeFrame_status hinput (decodeFrame_of_marker_ne hliteral rest)

/-- Settles O41: the frame decoder gives both states one answer, and `RAW_OUT` and `CONSUMED` are
driven from it alone. -/
theorem decodeUsesOnlyLastKeyByte : Obligations.DecodeUsesOnlyLastKeyByte := by
  intro s s' t hinput hnetid hlast hexec
  rw [exec_decode, ← hinput, ← hnetid, ← decodeFrame_congr_key hlast] at hexec
  have hdrive : DrivesListed .decode (fun r (v : RawFrame × Nat) =>
      { r with rawOut := v.1, consumed := BitVec.ofNat 16 v.2 }) := fun _ _ _ => rfl
  obtain ⟨t', hexec', hlisted⟩ := listedAgree_conclude hdrive s s' _ t hexec
  exact ⟨t', hexec', hlisted.symm⟩

end Sys2Proof.Machine
end

section
/-! PROOFS. SERIALIZE, and ENCODE as PACK followed by SERIALIZE (46_frame_encoder.md R262, R263). -/

namespace Sys2Proof

open Machine

/-- Encoder step 4 appends the addresses, first to last (46_frame_encoder.md R268). -/
theorem foldl_memWrite_address (l : List Address) (out : List Byte) :
    l.foldl (fun b a => memWrite b a.toList) out = out ++ l.flatMap Address.toList := by
  simp only [memWrite, List.foldl_append_eq_append, List.flatMap_def]

/-- The frame PACK gives when it succeeds, its header CRC included (47_logical_pack.md R307). -/
def sealedFrame (c : LogicalChunk) (key : Bytes16) (destinationC : Option Address)
    (second : Option (Bytes4 × List Byte)) : RawFrame :=
  { packedFrame c key destinationC second with
    crcHeader := unbe16 (crc16 (packedFrame c key destinationC second).headerBytes) }

/-- What PACK answers once its four checks have passed (47_logical_pack.md R308). -/
theorem packChunk_of_checks {c : LogicalChunk} {key : Bytes16}
    {destinationC : Option Address} {second : Option (Bytes4 × List Byte)}
    (hcount : checkDestinations c = .ok ()) (hdestC : encodeDestinationC c = .ok destinationC)
    (hsecond : encodeSecondHeader c key = .ok second) :
    packChunk c key =
      check (c.frameEnd == c.id) .notSameId >>= fun _ =>
        .ok (sealedFrame c key destinationC second) := by
  rw [packChunk, hcount, hdestC, hsecond]
  rfl

/-- What ENCODE has written once its checks have passed is the concatenation of the fields that
PACK stores: the header CRC of step 7 is taken over the same header region. -/
theorem encodeChunk_of_checks {c : LogicalChunk} {key : Bytes16}
    {destinationC : Option Address} {second : Option (Bytes4 × List Byte)}
    (hcount : checkDestinations c = .ok ()) (hdestC : encodeDestinationC c = .ok destinationC)
    (hsecond : encodeSecondHeader c key = .ok second) :
    encodeChunk c key =
      check (c.frameEnd == c.id) .notSameId >>= fun _ =>
        .ok (serializeFrame (sealedFrame c key destinationC second)) := by
  rw [encodeChunk, hcount, hdestC, hsecond]
  simp only [ok_bind, foldl_memWrite_address, serializeFrame_eq, RawFrame.headerBytes_eq,
    sealedFrame, packedFrame]
  cases second with
  | none => cases destinationC <;> simp [memWrite, optionBytes, encodeData]
  | some v =>
    cases encodeData (some v) <;> cases destinationC <;> simp [memWrite, optionBytes]

/-- ENCODE, which writes its bytes directly, is PACK followed by SERIALIZE (46_frame_encoder.md R263). -/
theorem encodeChunk_eq_send (c : LogicalChunk) (key : Bytes16) :
    encodeChunk c key = send c key := by
  unfold send
  cases hcount : checkDestinations c with
  | error kind => rw [encodeChunk, packChunk, hcount]; rfl
  | ok u =>
  cases hdestC : encodeDestinationC c with
  | error kind => rw [encodeChunk, packChunk, hcount, hdestC]; rfl
  | ok destinationC =>
  cases hsecond : encodeSecondHeader c key with
  | error kind => rw [encodeChunk, packChunk, hcount, hdestC, hsecond]; rfl
  | ok second =>
  rw [encodeChunk_of_checks hcount hdestC hsecond, packChunk_of_checks hcount hdestC hsecond]
  cases check (c.frameEnd == c.id) .notSameId <;> rfl

namespace Machine

/-- What SERIALIZE of a state is (46_frame_encoder.md R262). -/
theorem exec_serialize (s : State) :
    exec .serialize s =
      .next (s.complete { s.undriven with out := serializeFrame s.operands.rawIn }) :=
  rfl

/-- What PACK of a state is (47_logical_pack.md R308). -/
theorem exec_pack (s : State) :
    exec .pack s = .next (s.conclude (packChunk s.operands.chunkIn s.operands.key)
      (fun r f => { r with rawOut := f })) :=
  rfl

/-- What ENCODE of a state is (46_frame_encoder.md R277). -/
theorem exec_encode (s : State) :
    exec .encode s = .next (s.conclude (encodeChunk s.operands.chunkIn s.operands.key)
      (fun r b => { r with out := b })) :=
  rfl

/-- Settles O42: the sections written one after another, regrouped. -/
theorem serializeConcatenatesSections : Obligations.SerializeConcatenatesSections := by
  intro s
  refine ⟨_, exec_serialize s, State.complete_status .., ?_, State.complete_operands ..⟩
  rw [State.complete_out, serializeFrame_eq, RawFrame.headerBytes_eq]
  simp only [optionBytes, List.flatMap_def, List.append_assoc]

section
variable {s : State}

theorem exec_pack_of_ok {r : RawFrame}
    (h : packChunk s.operands.chunkIn s.operands.key = .ok r) :
    exec .pack s = .next (s.complete { s.undriven with rawOut := r }) := by
  rw [exec_pack, h, State.conclude_ok]

theorem exec_encode_of_ok {r : RawFrame}
    (h : packChunk s.operands.chunkIn s.operands.key = .ok r) :
    exec .encode s = .next (s.complete { s.undriven with out := serializeFrame r }) := by
  rw [exec_encode, encodeChunk_eq_send, send, h]
  rfl

theorem exec_pack_of_error {kind : ErrorKind}
    (h : packChunk s.operands.chunkIn s.operands.key = .error kind) :
    exec .pack s = .next (s.raise kind) := by
  rw [exec_pack, h, State.conclude_error]

theorem exec_encode_of_error {kind : ErrorKind}
    (h : packChunk s.operands.chunkIn s.operands.key = .error kind) :
    exec .encode s = .next (s.raise kind) := by
  rw [exec_encode, encodeChunk_eq_send, send, h]
  rfl

end

/-- Settles O44: when PACK has a frame, ENCODE has its bytes, and an error of PACK is ENCODE's. -/
theorem encodeIsPackThenSerialize : Obligations.EncodeIsPackThenSerialize := by
  intro s
  cases hpack : packChunk s.operands.chunkIn s.operands.key with
  | ok r =>
    refine ⟨_, _, exec_pack_of_ok hpack, exec_encode_of_ok hpack, rfl, fun _ => ?_,
      State.complete_operands ..⟩
    rw [State.complete_out, State.complete_rawOut]
  | error kind =>
    exact ⟨_, _, exec_pack_of_error hpack, exec_encode_of_error hpack, rfl, nofun,
      State.raise_operands ..⟩

end Machine

end Sys2Proof
end

section
/-! PROOFS. PACK of a well-formed chunk (10_state.md R35): it succeeds, and its frame is well formed
(R31) but for the marker, so that DECODE reads it back (46_frame_encoder.md R282). -/

namespace Sys2Proof

/-- Each field of the word `w2` is read back when the flags fit (46_frame_encoder.md R272). -/
theorem get_packCtrl2 {v : ControlWord2Wire} (h : v.Fits) :
    ∀ p ∈ ctrl2Fields v,
      p.1.get (packCtrl2 v.dataUnits v.feature v.negAnswer v.freqSwitch) = p.2 :=
  get_setFields (ctrl2Fields_fit h) (ctrl2Fields_disjoint v) zeroWord_clear

/-- The encoder's unit count is read back when it fits its field and the flags fit theirs. -/
theorem dataLengthField_encodeCtrl2 {c : LogicalChunk} {units : Nat}
    (hflags : c.ctrl2.feature ≤ 1 ∧ c.ctrl2.negAnswer ≤ 1 ∧ c.ctrl2.freqSwitch ≤ 1)
    (hunits : units ≤ 255) : (dataLengthField.get (encodeCtrl2 c units)).toNat = units := by
  have hget : dataLengthField.get (encodeCtrl2 c units) = BitVec.ofNat 8 units :=
    get_packCtrl2
      (v := ⟨BitVec.ofNat 8 units, c.ctrl2.feature, c.ctrl2.negAnswer, c.ctrl2.freqSwitch, 0⟩)
      hflags (dataLengthField, BitVec.ofNat 8 units) List.mem_cons_self
  rw [hget, BitVec.toNat_ofNat, Nat.mod_eq_of_lt (by omega)]

/-- Control word 2 with the bytes it counts: it is there when `more_header` is 1, and its units are
those of the data section, as WF_RAW asks (10_state.md R31). -/
def CountsData (c : LogicalChunk) (second : Option (Bytes4 × List Byte)) : Prop :=
  second.isSome = (c.ctrl.moreHeader == 1) ∧
    (encodeData second).map List.length =
      (if 0 < wireUnits (second.map fun v => v.1) then
        some (Config.unit * wireUnits (second.map fun v => v.1)) else none)

/-- Encoder step 8 writes a ciphertext of whole units as a data section of as many (R274). -/
theorem encodeData_length {w : Bytes4} {ct : List Byte} {units : Nat}
    (hlength : ct.length = 8 * units) (hunits : (dataLengthField.get w).toNat = units) :
    (encodeData (some (w, ct))).map List.length =
      if 0 < wireUnits (some w) then some (Config.unit * wireUnits (some w)) else none := by
  have hwire : wireUnits (some w) = units := hunits
  have hpositive : 0 < ct.length ↔ 0 < units := by omega
  rw [hwire]
  simp only [encodeData, hpositive]
  split_ifs
  · exact congrArg some hlength
  · rfl

section
variable {c : LogicalChunk} {key : Bytes16} (h : c.WellFormed key)
include h

/-- The `destinations` field of a well-formed chunk is the count that stands for it (R264). -/
theorem LogicalChunk.WellFormed.encodeCtrl1_eq : encodeCtrl1 c = packCtrl1 c.ctrl := by
  obtain ⟨-, -, -, hcount, -⟩ := h
  rw [encodeCtrl1, ← hcount, BitVec.ofNat_toNat, BitVec.setWidth_eq]

theorem LogicalChunk.WellFormed.unpackCtrl1_encodeCtrl1 :
    unpackCtrl1 (encodeCtrl1 c) = c.ctrl := by
  have hword := h.encodeCtrl1_eq
  obtain ⟨hfits, -⟩ := h
  rw [hword, unpackCtrl1_packCtrl1 hfits]

theorem LogicalChunk.WellFormed.encodeDestinationC_eq :
    encodeDestinationC c = .ok c.destinationC := by
  obtain ⟨-, -, -, -, hdestC, -⟩ := h
  refine encodeDestinationC_eq_ok.2 ?_
  by_cases hfrom : c.ctrl.fromRelay = 1
  · exact .inl ⟨hfrom, hdestC.2 hfrom, rfl⟩
  · exact .inr ⟨hfrom, Option.not_isSome_iff_eq_none.1 (mt hdestC.1 hfrom)⟩

/-- The ciphertext of a well-formed chunk is whole units, and they fit their field (R271). -/
theorem LogicalChunk.WellFormed.sealPayload_length (hmore : c.ctrl.moreHeader = 1) :
    ∃ units, units ≤ 255 ∧ (sealPayload key c.data).length = 8 * units := by
  obtain ⟨-, -, -, -, -, -, -, -, hother, hzero⟩ := h
  unfold sealPayload
  split
  case isTrue hkey =>
    obtain ⟨hwhole, hle⟩ := hzero hmore (isZeroKey_iff.1 hkey)
    exact ⟨c.data.length / 8, by omega, by omega⟩
  case isFalse hkey =>
    have hle := hother hmore (mt isZeroKey_iff.2 hkey)
    rw [aesEncrypt_length]
    exact ⟨2 * (c.data.length / 16 + 1), by omega, by omega⟩

/-- Encoder step 6 succeeds: control word 2 is there when `more_header` is 1, and it counts the units
of the data section (R270 to R272, R274). -/
theorem LogicalChunk.WellFormed.encodeSecondHeader_ok :
    ∃ second, encodeSecondHeader c key = .ok second ∧ CountsData c second := by
  by_cases hmore : c.ctrl.moreHeader = 1
  · obtain ⟨units, hunits, hlength⟩ := h.sealPayload_length hmore
    obtain ⟨-, hflags, -⟩ := h
    have hcount : (sealPayload key c.data).length / 8 = units := by omega
    refine ⟨_, encodeSecondHeader_eq_ok.2 (.inl ⟨hmore, by omega, rfl⟩), ?_, ?_⟩
    · rw [hmore]
      rfl
    · rw [hcount]
      exact encodeData_length hlength (dataLengthField_encodeCtrl2 hflags hunits)
  · refine ⟨none, encodeSecondHeader_eq_ok.2 (.inr ⟨hmore, rfl⟩), ?_, rfl⟩
    rw [beq_false_of_ne hmore, Option.isSome_none]

/-- With the plain marker every clause of R31 is what one encoder step stored. -/
theorem LogicalChunk.WellFormed.sealedFrame_wellFormed {second : Option (Bytes4 × List Byte)}
    (hmarker : c.aris = Config.arisLiteral) (hsecond : CountsData c second) :
    (sealedFrame c key c.destinationC second).WellFormed c.id key := by
  have hctrl := h.unpackCtrl1_encodeCtrl1
  have hdestinations : destinationsField.get (encodeCtrl1 c) = c.ctrl.destinations :=
    congrArg ControlWord1Fields.destinations hctrl
  have hfrom : fromField.get (encodeCtrl1 c) = c.ctrl.fromRelay :=
    congrArg ControlWord1Fields.fromRelay hctrl
  have hmore : moreHeaderField.get (encodeCtrl1 c) = c.ctrl.moreHeader :=
    congrArg ControlWord1Fields.moreHeader hctrl
  obtain ⟨-, -, -, hcount, hdestC, hend, -⟩ := h
  obtain ⟨hpresent, hdata⟩ := hsecond
  refine ⟨?_, ?_, ?_, hdata, rfl, hend, ?_, be16_unbe16 _, ?_⟩
  · show c.destinationsB.length = (destinationsField.get (encodeCtrl1 c)).toNat
    rw [hdestinations, hcount]
  · show c.destinationC.isSome = (fromField.get (encodeCtrl1 c) == 1)
    rw [hfrom, Bool.eq_iff_iff, beq_iff_eq, hdestC]
  · show (second.map fun v => v.1).isSome = (moreHeaderField.get (encodeCtrl1 c) == 1)
    rw [hmore, Option.isSome_map, hpresent]
  · show arisCandidate key (arisEncrypt key c.aris) = Config.arisLiteral
    rw [arisCandidate_arisEncrypt, hmarker]
  · show ((encodeData second).map fun ct => unbe16 (crc16 ct)).map be16 =
      (encodeData second).map crc16
    simp only [Option.map_map, Function.comp_def, be16_unbe16]

/-- PACK of a well-formed chunk succeeds (46_frame_encoder.md R282). -/
theorem LogicalChunk.WellFormed.packChunk_ok :
    ∃ second, CountsData c second ∧
      packChunk c key = .ok (sealedFrame c key c.destinationC second) := by
  obtain ⟨second, hsecond, hcounts⟩ := h.encodeSecondHeader_ok
  have hdestC := h.encodeDestinationC_eq
  obtain ⟨-, -, hcount, -, -, hend, -⟩ := h
  exact ⟨second, hcounts,
    packChunk_eq_ok.2 ⟨hcount, hend, c.destinationC, second, hdestC, hsecond, rfl⟩⟩

end

/-- DECODE of the bytes of a well-formed frame, nothing after them (45_frame_decoder.md R232). -/
theorem decodeFrame_serializeFrame {r : RawFrame} {netid : Bytes4} {key : Bytes16}
    (h : r.WellFormed netid key) :
    decodeFrame (serializeFrame r) key netid = .ok (r, (serializeFrame r).length) :=
  decodeFrame_eq_ok_iff.2 ⟨h, rfl, by rw [List.drop_length, List.append_nil]⟩

/-- Under one key two markers that encrypt alike are one (44_aris_marker.md R206 (a)). -/
theorem arisEncrypt_injective {key : Bytes16} {m m' : Bytes4}
    (h : arisEncrypt key m = arisEncrypt key m') : m = m' := by
  rw [← arisCandidate_arisEncrypt key m, h, arisCandidate_arisEncrypt]

/-- A frame packed from a chunk with another marker is refused for it, whatever follows the marker
(R282). -/
theorem decodeFrame_serializeFrame_of_marker_ne {r : RawFrame} {key : Bytes16} {marker : Bytes4}
    (haris : r.aris = arisEncrypt key marker) (hmarker : marker ≠ Config.arisLiteral) :
    decodeFrame (serializeFrame r) key r.id = .error .notSameAris := by
  have hrefused : r.aris ≠ arisEncrypt key Config.arisLiteral := by
    rw [haris]
    exact mt arisEncrypt_injective hmarker
  rw [serializeFrame_eq, RawFrame.headerBytes_eq, List.append_assoc, List.append_assoc]
  exact Machine.decodeFrame_of_marker_ne hrefused _

namespace Machine

/-- Settles O46: the two operations share PACK's frame, which is well formed when the marker is the
literal and stopped at the marker check when it is not. -/
theorem decodeUndoesEncode : Obligations.DecodeUndoesEncode := by
  intro s u hwf hkey hnetid
  obtain ⟨second, hcounts, hpack⟩ := hwf.packChunk_ok
  refine ⟨_, _, exec_encode_of_ok hpack, State.complete_status .., exec_pack_of_ok hpack,
    State.complete_status .., fun hinput => ?_⟩
  rw [State.complete_out] at hinput
  refine ⟨_, exec_decode u, fun hmarker => ?_, fun hmarker => ?_⟩
  · have hraw := hwf.sealedFrame_wellFormed hmarker hcounts
    have hlength := hraw.serializeFrame_length_le
    rw [hinput, hkey, hnetid, decodeFrame_serializeFrame hraw, State.conclude_ok]
    refine ⟨State.complete_status .., by rw [State.complete_rawOut, State.complete_rawOut], ?_⟩
    rw [State.complete_consumed, State.complete_out]
    exact Nat.mod_eq_of_lt (by omega)
  · refine (State.conclude_status_error_iff ..).2 ?_
    rw [hinput, hkey, hnetid]
    exact decodeFrame_serializeFrame_of_marker_ne rfl hmarker

end Machine

end Sys2Proof
end

section
/-! PROOFS. The end of a transaction (60_exceptions.md R340 to R346): the status codes, the errors
each operation can raise, and what a transaction changes and keeps (20_memory.md R54). -/

namespace Sys2Proof

/-- The statuses in the order of their codes (60_exceptions.md R341). -/
def statusesInOrder : List Status :=
  [.ok, .error .generic, .error .notSameId, .error .notSameAris, .error .notSameCrcHeader,
    .error .notSameCrcData, .error .notSameEnd, .error .invalidArgument, .error .invalidPadding,
    .error .bufferOverflow, .error .nullOrigin, .error .nullDestination]

/-- A status stands at the place its code says. -/
theorem statusesInOrder_code (a : Status) : statusesInOrder[a.code.toNat]? = some a := by
  cases a with
  | ok => rfl
  | error kind => cases kind <;> rfl

theorem Status.code_lt (a : Status) : a.code.toNat < 12 := by
  obtain ⟨hlt, -⟩ := List.getElem?_eq_some_iff.1 (statusesInOrder_code a)
  exact hlt

theorem Status.code_injective {a b : Status} (h : a.code = b.code) : a = b := by
  have ha := statusesInOrder_code a
  rw [h, statusesInOrder_code b] at ha
  exact (Option.some.inj ha).symm

/-- Settles O15: a status can be read off its code, so no two have the same. -/
theorem statusCodesAreInOrder : Obligations.StatusCodesAreInOrder :=
  ⟨rfl, rfl, rfl, rfl, rfl, rfl, rfl, rfl, rfl, rfl, rfl, rfl, fun _ => rfl,
    fun a => Nat.le_of_lt_succ a.code_lt, fun _ _ => Status.code_injective⟩

/-- The errors of an operation are among the statuses of `l` (60_exceptions.md R343). -/
def FailsWithin {α : Type} (l : List Status) (x : Except ErrorKind α) : Prop :=
  ∀ kind, x = .error kind → .error kind ∈ l

namespace FailsWithin

variable {α β : Type} {l : List Status}

theorem ok (a : α) : FailsWithin l (.ok a) := nofun

/-- An operation in two parts fails with an error of one of them (60_exceptions.md R346). -/
theorem bind {x : Except ErrorKind α} {f : α → Except ErrorKind β} (hx : FailsWithin l x)
    (hf : ∀ a, FailsWithin l (f a)) : FailsWithin l (x >>= f) := by
  intro kind h
  obtain h | ⟨a, -, h⟩ := bind_eq_error.1 h
  · exact hx kind h
  · exact hf a kind h

theorem map {x : Except ErrorKind α} (hx : FailsWithin l x) (f : α → β) :
    FailsWithin l (x.map f) :=
  fun kind h => hx kind (Machine.map_eq_error.1 h)

theorem check {kind : ErrorKind} (holds : Bool) (hkind : .error kind ∈ l) :
    FailsWithin l (check holds kind) := by
  intro kind' h
  obtain ⟨-, rfl⟩ := check_eq_error.1 h
  exact hkind

theorem readOptional {x : Except ErrorKind α} (hx : FailsWithin l x) (present : Bool) :
    FailsWithin l (Machine.readOptional present x) :=
  fun kind h => hx kind (Machine.readOptional_eq_error.1 h).2

section
variable (hoverflow : .error .bufferOverflow ∈ l) (span : List Byte)
include hoverflow

theorem memRead (p n : Nat) : FailsWithin l (Machine.memRead span p n) := by
  intro kind h
  obtain ⟨-, rfl⟩ := Machine.memRead_eq_error.1 h
  exact hoverflow

theorem readBytes2 (p : Nat) : FailsWithin l (Machine.readBytes2 span p) :=
  (memRead hoverflow span p 2).map Bytes2.ofList

theorem readBytes4 (p : Nat) : FailsWithin l (Machine.readBytes4 span p) :=
  (memRead hoverflow span p 4).map Bytes4.ofList

theorem readAddress (p : Nat) : FailsWithin l (Machine.readAddress span p) :=
  (memRead hoverflow span p 6).map Address.ofList

theorem readAddresses (p count : Nat) : FailsWithin l (Machine.readAddresses span p count) := by
  intro kind h
  obtain ⟨-, -, rfl⟩ := Machine.readAddresses_eq_error.1 h
  exact hoverflow

end

end FailsWithin

open Machine

theorem aesDecrypt_failsWithin (key : Bytes16) (input : List Byte) :
    FailsWithin (possibleStatuses .aesDecrypt) (aesDecrypt key input) := by
  intro kind h
  obtain ⟨-, rfl⟩ | ⟨-, -, hstrip⟩ := aesDecrypt_eq_error.1 h
  · decide
  · rw [pkcs7Strip_error hstrip]
    decide

theorem arisDecrypt_failsWithin {l : List Status} (haris : .error .notSameAris ∈ l)
    (key : Bytes16) (marker : Bytes4) : FailsWithin l (arisDecrypt key marker) :=
  FailsWithin.check _ haris

/-- The errors of DECODE are those of its reads and of its five checks (45_frame_decoder.md R233).
-/
theorem decodeFrame_failsWithin (input : List Byte) (key : Bytes16) (netid : Bytes4) :
    FailsWithin (possibleStatuses .decode) (decodeFrame input key netid) := by
  have hoverflow : .error .bufferOverflow ∈ possibleStatuses .decode := by decide
  unfold decodeFrame
  refine (FailsWithin.readBytes4 hoverflow input _).bind fun id => ?_
  refine (FailsWithin.check _ (by decide)).bind fun _ => ?_
  refine (FailsWithin.readBytes4 hoverflow input _).bind fun aris => ?_
  refine (arisDecrypt_failsWithin (by decide) key aris).bind fun _ => ?_
  refine (FailsWithin.readBytes4 hoverflow input _).bind fun ctrl => ?_
  refine (FailsWithin.readAddress hoverflow input _).bind fun origin => ?_
  refine (FailsWithin.readAddress hoverflow input _).bind fun destinationA => ?_
  refine (FailsWithin.readAddresses hoverflow input _ _).bind fun destinationsB => ?_
  refine ((FailsWithin.readAddress hoverflow input _).readOptional _).bind fun destinationC => ?_
  refine ((FailsWithin.readBytes4 hoverflow input _).readOptional _).bind fun ctrl2 => ?_
  refine (FailsWithin.readBytes2 hoverflow input _).bind fun crcHeader => ?_
  refine (FailsWithin.check _ (by decide)).bind fun _ => ?_
  refine ((FailsWithin.memRead hoverflow input _ _).readOptional _).bind fun data => ?_
  refine ((FailsWithin.readBytes2 hoverflow input _).readOptional _).bind fun crcData => ?_
  refine (FailsWithin.check _ (by decide)).bind fun _ => ?_
  refine (FailsWithin.readBytes4 hoverflow input _).bind fun frameEnd => ?_
  exact (FailsWithin.check _ (by decide)).bind fun _ => .ok _

theorem packChunk_failsWithin (c : LogicalChunk) (key : Bytes16) :
    FailsWithin (possibleStatuses .pack) (packChunk c key) := by
  intro kind h
  obtain ⟨-, rfl⟩ | ⟨-, h⟩ | ⟨-, -, h⟩ | ⟨-, -, -, -, rfl⟩ := packChunk_eq_error.1 h
  · decide
  · obtain ⟨-, -, rfl⟩ := encodeDestinationC_eq_error.1 h
    decide
  · obtain ⟨-, -, rfl⟩ := encodeSecondHeader_eq_error.1 h
    decide
  · decide

/-- ENCODE fails as PACK does (46_frame_encoder.md R263). -/
theorem encodeChunk_failsWithin (c : LogicalChunk) (key : Bytes16) :
    FailsWithin (possibleStatuses .encode) (encodeChunk c key) := by
  rw [encodeChunk_eq_send]
  exact (packChunk_failsWithin c key).map serializeFrame

theorem openPayload_failsWithin (key : Bytes16) (data : List Byte) :
    FailsWithin (possibleStatuses .aesDecrypt) (openPayload key data) := by
  unfold openPayload
  split
  · exact .ok data
  · exact aesDecrypt_failsWithin key data

theorem unpackFrame_failsWithin (r : RawFrame) (key : Bytes16) :
    FailsWithin (possibleStatuses .unpack) (unpackFrame r key) := by
  have hpayload : possibleStatuses .aesDecrypt ⊆ possibleStatuses .unpack := by decide
  intro kind h
  obtain ⟨-, -, rfl⟩ | ⟨-, -, -, hopen⟩ := unpackFrame_eq_error.1 h
  · decide
  · exact hpayload (openPayload_failsWithin key _ kind hopen)

namespace Machine

/-- What UNPACK of a state is (47_logical_pack.md R305). -/
theorem exec_unpack (s : State) :
    exec .unpack s = .next (s.conclude (unpackFrame s.operands.rawIn s.operands.key)
      (fun r c => { r with chunkOut := c })) :=
  rfl

/-- GET_FIELD of a present word outside its domain (40_bitfield.md R105). -/
theorem exec_getField_of_shift_gt {s : State} (hpresent : s.operands.wordPresent = true)
    (h : 32 ≤ s.operands.shift.toNat) :
    exec .getField s = .refused (.shiftOutOfDomain "GET_FIELD") := by
  show execGetField s = _
  rw [execGetField, shiftInDomain, decide_eq_false (by omega), if_pos hpresent,
    if_neg Bool.false_ne_true]

/-- SET_FIELD outside its domain (40_bitfield.md R111). -/
theorem exec_setField_of_shift_gt {s : State} (h : 32 ≤ s.operands.shift.toNat) :
    exec .setField s = .refused (.shiftOutOfDomain "SET_FIELD") := by
  show execSetField s = _
  rw [execSetField, shiftInDomain, decide_eq_false (by omega), if_neg Bool.false_ne_true]

/-- Settles O21: the two operations test the domain before anything else. -/
theorem shiftOutsideDomainIsRefused : Obligations.ShiftOutsideDomainIsRefused :=
  fun _ h => ⟨fun hpresent => exec_getField_of_shift_gt hpresent h, exec_setField_of_shift_gt h⟩

/-- How a transaction ends: with `Ok` and results, or with an error of `l` and no other result
(60_exceptions.md R345). -/
def EndsWithin (l : List Status) (s t : State) : Prop :=
  (∃ r, t = s.complete r) ∨ ∃ kind, .error kind ∈ l ∧ t = s.raise kind

/-- What is true of an operation that completes at all: it ends in one of the two ways, with a
status of its list. -/
def CompletesWithin (i : Instr) (s : State) : Prop :=
  ∀ t, exec i s = .next t → EndsWithin (possibleStatuses i) s t

theorem completesWithin_of_complete {i : Instr} {s : State} {r : ResultPorts}
    (hexec : exec i s = .next (s.complete r)) : CompletesWithin i s := by
  intro t ht
  rw [hexec] at ht
  cases ht
  exact .inl ⟨r, rfl⟩

theorem completesWithin_of_conclude {α : Type} {i : Instr} {s : State} {res : Except ErrorKind α}
    {drive : ResultPorts → α → ResultPorts} (hexec : exec i s = .next (s.conclude res drive))
    (hres : FailsWithin (possibleStatuses i) res) : CompletesWithin i s := by
  intro t ht
  rw [hexec] at ht
  cases ht
  obtain ⟨v, -, hend⟩ | ⟨kind, hkind, hend⟩ := s.conclude_cases res drive
  · exact .inl ⟨_, hend⟩
  · exact .inr ⟨kind, hres kind hkind, hend⟩

theorem completesWithin_of_refused {i : Instr} {s : State} {reason : Refusal}
    (hexec : exec i s = .refused reason) : CompletesWithin i s := by
  intro t ht
  rw [hexec] at ht
  cases ht

theorem completesWithin_getField (s : State) : CompletesWithin .getField s := by
  cases hpresent : s.operands.wordPresent with
  | false => exact completesWithin_of_complete (exec_getField_of_absent hpresent)
  | true =>
    obtain h | h := Nat.lt_or_ge s.operands.shift.toNat 32
    · exact completesWithin_of_complete (exec_getField_of_shift_le hpresent (by omega))
    · exact completesWithin_of_refused (exec_getField_of_shift_gt hpresent h)

theorem completesWithin_setField (s : State) : CompletesWithin .setField s := by
  obtain h | h := Nat.lt_or_ge s.operands.shift.toNat 32
  · exact completesWithin_of_complete (exec_setField_of_shift_le (by omega))
  · exact completesWithin_of_refused (exec_setField_of_shift_gt h)

/-- All that an operation which completes can do. -/
theorem exec_endsWithin {i : Instr} {s t : State} (hoperation : isOperation i = true)
    (hexec : exec i s = .next t) : EndsWithin (possibleStatuses i) s t := by
  suffices hends : CompletesWithin i s from hends t hexec
  cases i with
  | getField => exact completesWithin_getField s
  | setField => exact completesWithin_setField s
  | crc16 => exact completesWithin_of_complete (exec_crc16 s)
  | aesEncrypt => exact completesWithin_of_complete (exec_aesEncrypt s)
  | aesDecrypt =>
    exact completesWithin_of_conclude (exec_aesDecrypt s) (aesDecrypt_failsWithin _ _)
  | arisDecrypt =>
    exact completesWithin_of_conclude (exec_arisDecrypt s)
      (arisDecrypt_failsWithin (by decide) _ _)
  | arisEncrypt => exact completesWithin_of_complete (exec_arisEncrypt s)
  | decode => exact completesWithin_of_conclude (exec_decode s) (decodeFrame_failsWithin _ _ _)
  | encode => exact completesWithin_of_conclude (exec_encode s) (encodeChunk_failsWithin _ _)
  | unpack => exact completesWithin_of_conclude (exec_unpack s) (unpackFrame_failsWithin _ _)
  | pack => exact completesWithin_of_conclude (exec_pack s) (packChunk_failsWithin _ _)
  | serialize => exact completesWithin_of_complete (exec_serialize s)
  | ctrlWord1 c => cases hoperation
  | ctrlWord2 v => cases hoperation

/-- `Ok` is in the list of every operation (60_exceptions.md R343). -/
theorem ok_mem_possibleStatuses {i : Instr} (hoperation : isOperation i = true) :
    .ok ∈ possibleStatuses i := by
  cases i with
  | ctrlWord1 c => cases hoperation
  | ctrlWord2 v => cases hoperation
  | _ => exact List.mem_cons_self

/-- Settles O11: an operation ends with `Ok` or with an error it can raise. -/
theorem statusesAreThoseListed : Obligations.StatusesAreThoseListed := by
  intro i s t hoperation hexec
  obtain ⟨r, rfl⟩ | ⟨kind, hkind, rfl⟩ := exec_endsWithin hoperation hexec
  · rw [State.complete_status]
    exact ok_mem_possibleStatuses hoperation
  · rwa [State.raise_status]

/-- Settles O14: both ends of a transaction keep the operand ports. -/
theorem operationsKeepOperands : Obligations.OperationsKeepOperands := by
  intro i s t hoperation hexec
  obtain ⟨r, rfl⟩ | ⟨kind, -, rfl⟩ := exec_endsWithin hoperation hexec
  · exact ⟨s.complete_operands r, s.complete_source r, s.complete_work r⟩
  · exact s.raise_transactionFrame kind

/-- Settles O13: the first transaction keeps the operand ports, and of these alone the second is a
function. -/
theorem earlierTransactionHasNoEffect : Obligations.EarlierTransactionHasNoEffect := by
  intro i j s t v hi hj hfirst hsecond
  obtain ⟨hoperands, -, -⟩ := operationsKeepOperands i s t hi hfirst
  obtain ⟨u, hexec, hlisted⟩ :=
    resultsDependOnListedOperandsOnly j s t v hj (by rw [hoperands]) hsecond
  exact ⟨u, hexec, hlisted.symm⟩

end Machine

end Sys2Proof
end

section
/-! PROOFS. One step (30_encoding.md R85, R86; 45_frame_decoder.md R221): what can be fetched, when
a step has a next state, and the invariant it keeps. -/

namespace Sys2Proof.Machine

/-- A code that decodes selects the operation it encodes (30_encoding.md R85). -/
theorem decodeOp_eq_ok {op : Byte} {i : Instr} (h : decodeOp op = .ok i) :
    isOperation i = true ∧ encode i = [op] := by
  have hcode : ∀ n : Nat, op.toNat = n → [BitVec.ofNat 8 n] = [op] := by
    rintro _ rfl
    rw [BitVec.ofNat_toNat, BitVec.setWidth_eq]
  unfold decodeOp at h
  split at h
  case h_13 => cases h
  all_goals
    cases h
    exact ⟨rfl, hcode _ ‹_›⟩

theorem fetch_of_opPort {s : State} (hsource : s.source = .opPort) {i : Instr}
    (hdecode : decodeOp s.operands.op = .ok i) : fetch s = .ok i := by
  have hbytes : decode .opPort [s.operands.op] = .ok i := hdecode
  rw [fetch, fetchBytes_of_opPort hsource, hsource, ok_bind, hbytes]

theorem fetch_of_opPort_error {s : State} (hsource : s.source = .opPort) {r : Reject}
    (hdecode : decodeOp s.operands.op = .error r) : fetch s = .error (rejectKind r) := by
  have hbytes : decode .opPort [s.operands.op] = .error r := hdecode
  rw [fetch, fetchBytes_of_opPort hsource, hsource, ok_bind, hbytes]

/-- Where a control word is fetched, the read fails or answers four bytes. -/
theorem fetchBytes_ctrlWord_cases {s : State}
    (hsource : s.source = .ctrlWord1 ∨ s.source = .ctrlWord2) :
    fetchBytes s = .error .bufferOverflow ∨ ∃ w : Bytes4, fetchBytes s = .ok w.toList := by
  rw [fetchBytes_of_ctrlWord hsource]
  cases hread : memRead s.operands.input s.work.cursor 4 with
  | error kind =>
    obtain ⟨-, rfl⟩ := memRead_eq_error.1 hread
    exact .inl rfl
  | ok v => exact .inr ⟨Bytes4.ofList v, by rw [Bytes4.toList_ofList (memRead_length hread)]⟩

theorem fetch_of_fetchBytes_error {s : State} {kind : ErrorKind}
    (h : fetchBytes s = .error kind) : fetch s = .error kind := by
  rw [fetch, h, error_bind]

theorem rejectKind_eq (r : Reject) : rejectKind r = .invalidArgument := by
  cases r <;> rfl

/-- All that can be fetched: nothing, with one of two errors; the operation of the `OP` port; or a
control word at the cursor. -/
theorem fetch_cases (s : State) :
    (∃ kind, (kind = .bufferOverflow ∨ kind = .invalidArgument) ∧ fetch s = .error kind) ∨
    (∃ i, s.source = .opPort ∧ isOperation i = true ∧ encode i = [s.operands.op] ∧
      fetch s = .ok i) ∨
    (∃ w, s.source = .ctrlWord1 ∧ fetch s = .ok (.ctrlWord1 (unpackCtrl1 w))) ∨
    (∃ w, s.source = .ctrlWord2 ∧ fetch s = .ok (.ctrlWord2 (unpackCtrl2 w))) := by
  cases hsource : s.source with
  | opPort =>
    cases hdecode : decodeOp s.operands.op with
    | error r =>
      exact .inl ⟨_, .inr (rejectKind_eq r), fetch_of_opPort_error hsource hdecode⟩
    | ok i =>
      obtain ⟨hoperation, hcode⟩ := decodeOp_eq_ok hdecode
      exact .inr (.inl ⟨i, rfl, hoperation, hcode, fetch_of_opPort hsource hdecode⟩)
  | ctrlWord1 =>
    obtain herror | ⟨w, hbytes⟩ := fetchBytes_ctrlWord_cases (.inl hsource)
    · exact .inl ⟨_, .inl rfl, fetch_of_fetchBytes_error herror⟩
    · exact .inr (.inr (.inl ⟨w, rfl, by rw [fetch, hbytes, ok_bind, hsource, decode_ctrlWord1]⟩))
  | ctrlWord2 =>
    obtain herror | ⟨w, hbytes⟩ := fetchBytes_ctrlWord_cases (.inr hsource)
    · exact .inl ⟨_, .inl rfl, fetch_of_fetchBytes_error herror⟩
    · exact .inr (.inr (.inr ⟨w, rfl, by rw [fetch, hbytes, ok_bind, hsource, decode_ctrlWord2]⟩))

theorem step_of_fetch_ok {s : State} {i : Instr} (h : fetch s = .ok i) : step s = exec i s := by
  rw [step, h]

theorem step_of_fetch_error {s : State} {kind : ErrorKind} (h : fetch s = .error kind) :
    step s = .next (s.raise kind) := by
  rw [step, h]

/-- What control word 1 does (45_frame_decoder.md R224). -/
theorem exec_ctrlWord1 (c : ControlWord1Fields) (s : State) :
    exec (.ctrlWord1 c) s = .next { s with work := s.work.takeCtrl1 c } := rfl

/-- What control word 2 does (45_frame_decoder.md R228, R230). -/
theorem exec_ctrlWord2 (v : ControlWord2Wire) (s : State) :
    exec (.ctrlWord2 v) s = .next { s with work := s.work.takeCtrl2 v } := rfl

/-- Settles O51: each clause is what taking the word puts into one field, or a field it leaves. -/
theorem ctrlWord1TakesStructure : Obligations.CtrlWord1TakesStructure := fun c s =>
  ⟨_, exec_ctrlWord1 c s, DecoderWork.takeCtrl1_destinations .., DecoderWork.takeCtrl1_fromRelay ..,
    DecoderWork.takeCtrl1_moreHeader .., DecoderWork.takeCtrl1_cursor ..,
    DecoderWork.takeCtrl1_dataUnits .., rfl, rfl, rfl⟩

/-- Settles O52: each clause is what taking the word puts into one field, or a field it leaves. -/
theorem ctrlWord2TakesDataLength : Obligations.CtrlWord2TakesDataLength := fun v s =>
  ⟨_, exec_ctrlWord2 v s, DecoderWork.takeCtrl2_dataUnits .., DecoderWork.takeCtrl2_cursor ..,
    DecoderWork.takeCtrl2_destinations .., DecoderWork.takeCtrl2_fromRelay ..,
    DecoderWork.takeCtrl2_moreHeader .., rfl, rfl, rfl⟩

/-- The operands outside the domain of the two operations on bit fields (40_bitfield.md R105,
R111). -/
def OutsideDomain (i : Instr) (s : State) : Prop :=
  32 ≤ s.operands.shift.toNat ∧
    ((i = .getField ∧ s.operands.wordPresent = true) ∨ i = .setField)

theorem exec_ne_next_of_outsideDomain {i : Instr} {s : State} (h : OutsideDomain i s) (t : State) :
    exec i s ≠ .next t := by
  obtain ⟨hshift, ⟨rfl, hpresent⟩ | rfl⟩ := h
  · rw [exec_getField_of_shift_gt hpresent hshift]
    nofun
  · rw [exec_setField_of_shift_gt hshift]
    nofun

/-- Every instruction inside its domain has a next state (60_exceptions.md R343). -/
theorem exec_next_or_outsideDomain (i : Instr) (s : State) :
    (∃ t, exec i s = .next t) ∨ OutsideDomain i s := by
  cases i with
  | getField =>
    cases hpresent : s.operands.wordPresent with
    | false => exact .inl ⟨_, exec_getField_of_absent hpresent⟩
    | true =>
      obtain h | h := Nat.lt_or_ge s.operands.shift.toNat 32
      · exact .inl ⟨_, exec_getField_of_shift_le hpresent (by omega)⟩
      · exact .inr ⟨h, .inl ⟨rfl, hpresent⟩⟩
  | setField =>
    obtain h | h := Nat.lt_or_ge s.operands.shift.toNat 32
    · exact .inl ⟨_, exec_setField_of_shift_le (by omega)⟩
    · exact .inr ⟨h, .inr rfl⟩
  | crc16 => exact .inl ⟨_, exec_crc16 s⟩
  | aesEncrypt => exact .inl ⟨_, exec_aesEncrypt s⟩
  | aesDecrypt => exact .inl ⟨_, exec_aesDecrypt s⟩
  | arisDecrypt => exact .inl ⟨_, exec_arisDecrypt s⟩
  | arisEncrypt => exact .inl ⟨_, exec_arisEncrypt s⟩
  | decode => exact .inl ⟨_, exec_decode s⟩
  | encode => exact .inl ⟨_, exec_encode s⟩
  | unpack => exact .inl ⟨_, exec_unpack s⟩
  | pack => exact .inl ⟨_, exec_pack s⟩
  | serialize => exact .inl ⟨_, exec_serialize s⟩
  | ctrlWord1 c => exact .inl ⟨_, exec_ctrlWord1 c s⟩
  | ctrlWord2 v => exact .inl ⟨_, exec_ctrlWord2 v s⟩

/-- Settles O10: only an operation can be refused, and the `OP` port holds its code. -/
theorem stepStopsOnlyOnShiftOutsideDomain : Obligations.StepStopsOnlyOnShiftOutsideDomain := by
  intro s
  constructor
  · intro hstops
    obtain ⟨kind, -, hfetch⟩ | ⟨i, hsource, -, hcode, hfetch⟩ | ⟨w, -, hfetch⟩ | ⟨w, -, hfetch⟩ :=
      fetch_cases s
    · exact absurd ⟨_, step_of_fetch_error hfetch⟩ hstops
    · rw [step_of_fetch_ok hfetch] at hstops
      obtain ⟨hshift, ⟨rfl, hpresent⟩ | rfl⟩ := (exec_next_or_outsideDomain i s).resolve_left hstops
      · exact ⟨hsource, hshift, .inl ⟨(List.cons.inj hcode).1.symm, hpresent⟩⟩
      · exact ⟨hsource, hshift, .inr (List.cons.inj hcode).1.symm⟩
    · exact absurd ⟨_, (step_of_fetch_ok hfetch).trans (exec_ctrlWord1 _ s)⟩ hstops
    · exact absurd ⟨_, (step_of_fetch_ok hfetch).trans (exec_ctrlWord2 _ s)⟩ hstops
  · rintro ⟨hsource, hshift, ⟨hop, hpresent⟩ | hop⟩ ⟨t, hstep⟩
    · have hfetch : fetch s = .ok .getField := fetch_of_opPort hsource (by rw [hop]; rfl)
      rw [step_of_fetch_ok hfetch] at hstep
      exact exec_ne_next_of_outsideDomain ⟨hshift, .inl ⟨rfl, hpresent⟩⟩ t hstep
    · have hfetch : fetch s = .ok .setField := fetch_of_opPort hsource (by rw [hop]; rfl)
      rw [step_of_fetch_ok hfetch] at hstep
      exact exec_ne_next_of_outsideDomain ⟨hshift, .inr rfl⟩ t hstep

/-- All that a step can do: a transaction ends, with a status that is not `NullOrigin`, or the
decoder takes a control word. -/
theorem step_cases {s t : State} (hstep : step s = .next t) :
    (TransactionFrame s t ∧ t.results.status ≠ .error .nullOrigin) ∨
    (∃ w, s.source = .ctrlWord1 ∧ t = { s with work := s.work.takeCtrl1 (unpackCtrl1 w) }) ∨
    (∃ w, s.source = .ctrlWord2 ∧ t = { s with work := s.work.takeCtrl2 (unpackCtrl2 w) }) := by
  obtain ⟨kind, hkind, hfetch⟩ | ⟨i, -, hoperation, -, hfetch⟩ | ⟨w, hsource, hfetch⟩ |
    ⟨w, hsource, hfetch⟩ := fetch_cases s
  · rw [step_of_fetch_error hfetch] at hstep
    cases hstep
    refine .inl ⟨s.raise_transactionFrame kind, ?_⟩
    obtain rfl | rfl := hkind <;> simp
  · rw [step_of_fetch_ok hfetch] at hstep
    have hlisted := statusesAreThoseListed i s t hoperation hstep
    have hunlisted : .error .nullOrigin ∉ possibleStatuses i := by
      cases i <;> simp [possibleStatuses]
    exact .inl ⟨operationsKeepOperands i s t hoperation hstep,
      fun hstatus => hunlisted (hstatus ▸ hlisted)⟩
  · rw [step_of_fetch_ok hfetch, exec_ctrlWord1] at hstep
    cases hstep
    exact .inr (.inl ⟨w, hsource, rfl⟩)
  · rw [step_of_fetch_ok hfetch, exec_ctrlWord2] at hstep
    cases hstep
    exact .inr (.inr ⟨w, hsource, rfl⟩)

/-- A byte that fits one bit is 0 or 1. -/
theorem eq_zero_or_one_of_le {b : Byte} (h : b ≤ 1) : b = 0 ∨ b = 1 := by
  have hle : b.toNat ≤ 1 := h
  obtain hb | hb : b.toNat = 0 ∨ b.toNat = 1 := by omega
  · exact .inl (BitVec.eq_of_toNat_eq hb)
  · exact .inr (BitVec.eq_of_toNat_eq hb)

/-- Settles O8: at reset the decoder has taken nothing and no error has been raised. -/
theorem engineInvariantAtReset : Obligations.EngineInvariantAtReset :=
  ⟨fun _ => State.reset_work, .inl rfl, .inl rfl, nofun⟩

/-- Settles O9: a transaction discards the decoder's values, and a control word is taken only while
no transaction is presented, with fields that fit one bit. -/
theorem stepKeepsEngineInvariant : Obligations.StepKeepsEngineInvariant := by
  intro s t ⟨_, hfrom, hmore, hstatus⟩ hstep
  obtain ⟨⟨-, -, hwork⟩, hstatus'⟩ | ⟨w, hsource, rfl⟩ | ⟨w, hsource, rfl⟩ := step_cases hstep
  · refine ⟨fun _ => hwork, ?_, ?_, hstatus'⟩
    · rw [hwork]
      exact .inl rfl
    · rw [hwork]
      exact .inl rfl
  · obtain ⟨-, -, hfrom', -, -, -, -, hmore'⟩ := unpackCtrl1_fits w
    refine ⟨fun htransaction => ?_, eq_zero_or_one_of_le hfrom', eq_zero_or_one_of_le hmore',
      hstatus⟩
    cases hsource.symm.trans htransaction
  · refine ⟨fun htransaction => ?_, hfrom, hmore, hstatus⟩
    cases hsource.symm.trans htransaction

end Sys2Proof.Machine
end

section
/-! PROOFS. The statement about the two AES block functions (42_aes_pkcs7.md R142). -/

namespace Sys2Proof

/-- Settles O28: each round's transformations are undone in reverse order. -/
theorem aesBlockFunctionsAreInverse : Obligations.AesBlockFunctionsAreInverse :=
  fun k b => ⟨aesDecBlock_aesEncBlock k b, aesEncBlock_aesDecBlock k b⟩

end Sys2Proof
end

section
/-! PROOFS. The values PACK and UNPACK give (47_logical_pack.md R301 to R308): the control words bit
by bit, each field of the RawFrame, and each field of the chunk. -/

namespace Sys2Proof

theorem sealPayload_eq (key : Bytes16) (data : List Byte) :
    sealPayload key data = if key = Config.zeroKey then data else aesEncrypt key data := by
  simp only [sealPayload, isZeroKey_iff]

theorem openPayload_eq (key : Bytes16) (data : List Byte) :
    openPayload key data = if key = Config.zeroKey then .ok data else aesDecrypt key data := by
  simp only [openPayload, isZeroKey_iff]

/-- What an insertion ORs into the word, without the widening to 40 bits of 40_bitfield.md R108. -/
theorem FieldDescriptor.place_eq_shiftLeft (f : FieldDescriptor) (data : Byte) :
    f.place data = data.setWidth 32 <<< f.shift := by
  apply BitVec.eq_of_getLsbD_eq
  intro i hi
  rw [f.place_getLsbD data hi, BitVec.getLsbD_shiftLeft, BitVec.getLsbD_setWidth]
  by_cases hlow : f.shift ≤ i
  · simp [hi, hlow, Nat.not_lt.2 hlow, show i - f.shift < 32 by omega]
  · simp [hlow, Nat.lt_of_not_le hlow]

theorem FieldDescriptor.be32_set_eq_or (f : FieldDescriptor) (w : Bytes4) (data : Byte) :
    be32 (f.set w data) = be32 w ||| (data.setWidth 32 <<< f.shift) := by
  rw [f.be32_set, f.place_eq_shiftLeft]

/-- The word `w` of 46_frame_encoder.md R266. -/
theorem be32_packCtrl1 (c : ControlWord1Fields) :
    be32 (packCtrl1 c) =
      (c.version.setWidth 32 <<< 28) ||| (c.destinations.setWidth 32 <<< 20) |||
      (c.optionBits.setWidth 32 <<< 17) ||| (c.fromRelay.setWidth 32 <<< 16) |||
      (c.sequenceNo.setWidth 32 <<< 10) ||| (c.retry.setWidth 32 <<< 9) |||
      (c.moreData.setWidth 32 <<< 8) ||| (c.identifier.setWidth 32 <<< 1) |||
      c.moreHeader.setWidth 32 := by
  simp only [packCtrl1, FieldDescriptor.be32_set_eq_or, be32_zeroWord, BitVec.zero_or, versionField,
    destinationsField, optionField, fromField, sequenceField, retryField, moreDataField,
    identifierField, moreHeaderField, BitVec.shiftLeft_zero]

/-- The word `w2` of 46_frame_encoder.md R272. -/
theorem be32_packCtrl2 (units feature negAnswer freqSwitch : Byte) :
    be32 (packCtrl2 units feature negAnswer freqSwitch) =
      (units.setWidth 32 <<< 24) ||| (feature.setWidth 32 <<< 23) |||
      (negAnswer.setWidth 32 <<< 22) ||| (freqSwitch.setWidth 32 <<< 21) := by
  simp only [packCtrl2, FieldDescriptor.be32_set_eq_or, be32_zeroWord, BitVec.zero_or]
  rfl

/-- A count that fits a byte, widened to a word. -/
theorem setWidth_ofNat_of_le {n : Nat} (h : n ≤ 255) :
    (BitVec.ofNat 8 n).setWidth 32 = BitVec.ofNat 32 n := by
  apply BitVec.eq_of_toNat_eq
  simp only [BitVec.toNat_setWidth, BitVec.toNat_ofNat]
  omega

/-- The `destination_c` that is written: the chunk's, exactly when `from` is 1 (46_frame_encoder.md
R269). -/
def writtenDestinationC (c : LogicalChunk) : Option Address :=
  if c.ctrl.fromRelay = 1 then c.destinationC else none

/-- Control word 2 and the ciphertext that are written, exactly when `more_header` is 1
(46_frame_encoder.md R270, R272). -/
def writtenSecond (c : LogicalChunk) (key : Bytes16) : Option (Bytes4 × List Byte) :=
  if c.ctrl.moreHeader = 1 then
    some (encodeCtrl2 c ((sealPayload key c.data).length / 8), sealPayload key c.data)
  else none

section
variable {c : LogicalChunk} {key : Bytes16}

theorem encodeDestinationC_of_present
    (h : ¬ (c.ctrl.fromRelay = 1 ∧ c.destinationC = none)) :
    encodeDestinationC c = .ok (writtenDestinationC c) := by
  unfold writtenDestinationC
  split_ifs with hfrom
  · exact encodeDestinationC_eq_ok.2
      (.inl ⟨hfrom, Option.isSome_iff_ne_none.2 fun hnone => h ⟨hfrom, hnone⟩, rfl⟩)
  · exact encodeDestinationC_eq_ok.2 (.inr ⟨hfrom, rfl⟩)

theorem encodeSecondHeader_of_fits
    (h : ¬ (c.ctrl.moreHeader = 1 ∧ 255 < (sealPayload key c.data).length / 8)) :
    encodeSecondHeader c key = .ok (writtenSecond c key) := by
  unfold writtenSecond
  split_ifs with hmore
  · exact encodeSecondHeader_eq_ok.2
      (.inl ⟨hmore, Nat.le_of_not_lt fun hlong => h ⟨hmore, hlong⟩, rfl⟩)
  · exact encodeSecondHeader_eq_ok.2 (.inr ⟨hmore, rfl⟩)

/-- The data section that is written: a ciphertext that is not empty (46_frame_encoder.md R274). -/
theorem encodeData_writtenSecond :
    encodeData (writtenSecond c key) =
      if c.ctrl.moreHeader = 1 ∧ 0 < (sealPayload key c.data).length then
        some (sealPayload key c.data) else none := by
  unfold writtenSecond
  by_cases hmore : c.ctrl.moreHeader = 1
  · simp only [hmore, if_true, encodeData, true_and]
  · simp only [hmore, if_false, encodeData, false_and]

theorem packChunk_ok (hcount : c.destinationsB.length ≤ 255)
    (hdestC : ¬ (c.ctrl.fromRelay = 1 ∧ c.destinationC = none))
    (hunits : ¬ (c.ctrl.moreHeader = 1 ∧ 255 < (sealPayload key c.data).length / 8))
    (hend : c.frameEnd = c.id) :
    packChunk c key = .ok (sealedFrame c key (writtenDestinationC c) (writtenSecond c key)) :=
  packChunk_eq_ok.2 ⟨hcount, hend, _, _, encodeDestinationC_of_present hdestC,
    encodeSecondHeader_of_fits hunits, rfl⟩

/-- Control word 1 as PACK writes it, the count of destinations in its place. -/
theorem be32_encodeCtrl1 (hcount : c.destinationsB.length ≤ 255) :
    be32 (encodeCtrl1 c) =
      (c.ctrl.version.setWidth 32 <<< 28) ||| (BitVec.ofNat 32 c.destinationsB.length <<< 20) |||
      (c.ctrl.optionBits.setWidth 32 <<< 17) ||| (c.ctrl.fromRelay.setWidth 32 <<< 16) |||
      (c.ctrl.sequenceNo.setWidth 32 <<< 10) ||| (c.ctrl.retry.setWidth 32 <<< 9) |||
      (c.ctrl.moreData.setWidth 32 <<< 8) ||| (c.ctrl.identifier.setWidth 32 <<< 1) |||
      c.ctrl.moreHeader.setWidth 32 := by
  rw [encodeCtrl1, be32_packCtrl1, setWidth_ofNat_of_le hcount]

/-- Control word 2 as PACK writes it, the count of units in its place. -/
theorem map_be32_writtenSecond
    (hunits : ¬ (c.ctrl.moreHeader = 1 ∧ 255 < (sealPayload key c.data).length / 8)) :
    ((writtenSecond c key).map fun v => v.1).map be32 =
      if c.ctrl.moreHeader = 1 then
        some ((BitVec.ofNat 32 ((sealPayload key c.data).length / 8) <<< 24) |||
          (c.ctrl2.feature.setWidth 32 <<< 23) ||| (c.ctrl2.negAnswer.setWidth 32 <<< 22) |||
          (c.ctrl2.freqSwitch.setWidth 32 <<< 21))
      else none := by
  unfold writtenSecond
  split_ifs with hmore
  · have hfits : (sealPayload key c.data).length / 8 ≤ 255 :=
      Nat.le_of_not_lt fun hlong => hunits ⟨hmore, hlong⟩
    simp only [Option.map_some, encodeCtrl2, be32_packCtrl2, setWidth_ofNat_of_le hfits]
  · rfl

end

theorem map_be16_unbe16_crc16 (data : Option (List Byte)) :
    (data.map fun d => unbe16 (crc16 d)).map be16 = data.map crc16 := by
  simp only [Option.map_map, Function.comp_def, be16_unbe16]

namespace Machine

/-- Settles O43: the first check that does not hold gives the error, and when all hold each field of
the frame is what one encoder step wrote. -/
theorem packBuildsEachFieldOrFirstError : Obligations.PackBuildsEachFieldOrFirstError := by
  rintro s c ct rfl hct
  rw [← sealPayload_eq] at hct
  subst hct
  refine ⟨_, exec_pack s, State.conclude_operands .., ?_⟩
  by_cases hcount : 255 < s.operands.chunkIn.destinationsB.length
  · rw [if_pos hcount]
    exact (State.conclude_status_error_iff ..).2 (packChunk_eq_error.2 (.inl ⟨hcount, rfl⟩))
  rw [if_neg hcount]
  have hcount := Nat.le_of_not_lt hcount
  by_cases hdestC : s.operands.chunkIn.ctrl.fromRelay = 1 ∧ s.operands.chunkIn.destinationC = none
  · rw [if_pos hdestC]
    obtain ⟨hfrom, hnone⟩ := hdestC
    exact (State.conclude_status_error_iff ..).2 (packChunk_eq_error.2
      (.inr (.inl ⟨hcount, encodeDestinationC_eq_error.2 ⟨hfrom, hnone, rfl⟩⟩)))
  rw [if_neg hdestC]
  have hdestC' := encodeDestinationC_of_present hdestC
  by_cases hunits : s.operands.chunkIn.ctrl.moreHeader = 1 ∧
      255 < (sealPayload s.operands.key s.operands.chunkIn.data).length / 8
  · rw [if_pos hunits]
    obtain ⟨hmore, hlong⟩ := hunits
    exact (State.conclude_status_error_iff ..).2 (packChunk_eq_error.2
      (.inr (.inr (.inl ⟨hcount, ⟨_, hdestC'⟩,
        encodeSecondHeader_eq_error.2 ⟨hmore, hlong, rfl⟩⟩))))
  rw [if_neg hunits]
  have hsecond := encodeSecondHeader_of_fits hunits
  by_cases hend : s.operands.chunkIn.frameEnd ≠ s.operands.chunkIn.id
  · rw [if_pos hend]
    exact (State.conclude_status_error_iff ..).2 (packChunk_eq_error.2
      (.inr (.inr (.inr ⟨hcount, ⟨_, hdestC'⟩, ⟨_, hsecond⟩, hend, rfl⟩))))
  rw [if_neg hend, packChunk_ok hcount hdestC hunits (Decidable.not_not.1 hend), State.conclude_ok]
  refine ⟨State.complete_status .., rfl, rfl, be32_encodeCtrl1 hcount, rfl, rfl, rfl, rfl,
    map_be32_writtenSecond hunits, encodeData_writtenSecond, be16_unbe16 _, ?_, rfl⟩
  refine (map_be16_unbe16_crc16 (encodeData _)).trans ?_
  rw [encodeData_writtenSecond]
  split_ifs <;> rfl

end Machine

/-- Whether UNPACK looks at the data section (47_logical_pack.md R304). -/
abbrev RawFrame.HasPayload (r : RawFrame) : Prop :=
  moreHeaderField.get r.ctrl = 1 ∧ r.data.isSome = true

/-- The payload UNPACK gives: that of the data section when it is looked at, none otherwise
(47_logical_pack.md R304). -/
def openedPayload (r : RawFrame) (key : Bytes16) : Except ErrorKind (List Byte) :=
  if r.HasPayload then openPayload key (r.data.getD []) else .ok []

/-- The chunk UNPACK gives, with `v` the fields of control word 2 and `plain` the payload
(47_logical_pack.md R301 to R304). -/
def unpackedChunk (r : RawFrame) (v : ControlWord2Fields) (plain : List Byte) : LogicalChunk where
  id := r.id
  aris := r.aris
  ctrl := unpackCtrl1 r.ctrl
  origin := r.origin
  destinationA := r.destinationA
  destinationsB := r.destinationsB
  destinationC := r.destinationC
  ctrl2 := if r.HasPayload then { v with dataLength := logicalDataLength plain.length } else v
  crcHeader := r.crcHeader
  data := plain
  crcData := r.crcData.getD ⟨0, 0⟩
  frameEnd := r.frameEnd

/-- UNPACK answers a chunk exactly when control word 2 is there when it must be and the payload
opens (47_logical_pack.md R305). -/
theorem unpackFrame_eq_ok_iff {r : RawFrame} {key : Bytes16} {c : LogicalChunk} :
    unpackFrame r key = .ok c ↔
      ∃ v plain, unpackCtrl2Fields (moreHeaderField.get r.ctrl) r.ctrl2 = .ok v ∧
        openedPayload r key = .ok plain ∧ c = unpackedChunk r v plain := by
  have hpresent : (moreHeaderField.get r.ctrl == 1 && r.data.isSome) = decide r.HasPayload := by
    rw [Bool.eq_iff_iff, Bool.and_eq_true, beq_iff_eq, decide_eq_true_iff]
  rw [unpackFrame_eq_ok, hpresent]
  by_cases hpayload : r.HasPayload
  · simp only [openedPayload, unpackedChunk, if_pos hpayload, Machine.readOptional_eq_ok,
      decide_eq_true hpayload]
    constructor
    · rintro ⟨v, -, hv, ⟨-, plain, hplain, rfl⟩ | ⟨hfalse, -⟩, rfl⟩
      · exact ⟨v, plain, hv, hplain, rfl⟩
      · cases hfalse
    · rintro ⟨v, plain, hv, hplain, rfl⟩
      exact ⟨v, some plain, hv, .inl ⟨trivial, plain, hplain, rfl⟩, rfl⟩
  · simp only [openedPayload, unpackedChunk, if_neg hpayload, Machine.readOptional_eq_ok,
      decide_eq_false hpayload]
    constructor
    · rintro ⟨v, -, hv, ⟨hfalse, -⟩ | ⟨-, rfl⟩, rfl⟩
      · cases hfalse
      · exact ⟨v, [], hv, rfl, rfl⟩
    · rintro ⟨v, _, hv, ⟨⟩, rfl⟩
      exact ⟨v, none, hv, .inr ⟨trivial, rfl⟩, rfl⟩

/-- The fields of control word 2 before the data is looked at (47_logical_pack.md R302). -/
theorem unpackCtrl2Fields_of_one (w : Bytes4) :
    unpackCtrl2Fields 1 (some w) =
      .ok ⟨(dataLengthField.get w).setWidth 16, featureField.get w, negAnswerField.get w,
        freqSwitchField.get w⟩ := rfl

theorem unpackCtrl2Fields_of_ne {m : Byte} (hm : m ≠ 1) (ctrl2 : Option Bytes4) :
    unpackCtrl2Fields m ctrl2 = .ok ⟨0, 0, 0, 0⟩ := by
  unfold unpackCtrl2Fields
  rw [beq_false_of_ne hm, if_neg Bool.false_ne_true]

theorem logicalDataLength_toNat {n : Nat} (h : n < 65536) : (logicalDataLength n).toNat = n := by
  rw [logicalDataLength, if_pos h, BitVec.toNat_ofNat, Nat.mod_eq_of_lt h]

theorem unpackFrame_eq_error_of_opened {r : RawFrame} {key : Bytes16} {kind : ErrorKind}
    (hctrl2 : ¬ (moreHeaderField.get r.ctrl = 1 ∧ r.ctrl2 = none))
    (hopened : openedPayload r key = .error kind) : unpackFrame r key = .error kind := by
  unfold openedPayload at hopened
  split_ifs at hopened with hpayload
  obtain ⟨hmore, hdata⟩ := hpayload
  have hthere : r.ctrl2.isSome = true :=
    Option.isSome_iff_ne_none.2 fun hnone => hctrl2 ⟨hmore, hnone⟩
  exact unpackFrame_eq_error.2 (.inr ⟨hmore, hthere, hdata, hopened⟩)

/-- Control word 2 is there when it must be, or UNPACK fails (47_logical_pack.md R302). -/
theorem unpackCtrl2Fields_ok {r : RawFrame}
    (hctrl2 : ¬ (moreHeaderField.get r.ctrl = 1 ∧ r.ctrl2 = none)) :
    ∃ v, unpackCtrl2Fields (moreHeaderField.get r.ctrl) r.ctrl2 = .ok v := by
  cases hv : unpackCtrl2Fields (moreHeaderField.get r.ctrl) r.ctrl2 with
  | ok v => exact ⟨v, rfl⟩
  | error kind =>
    obtain ⟨hmore, hnone, -⟩ := unpackCtrl2Fields_eq_error.1 hv
    exact absurd ⟨hmore, hnone⟩ hctrl2

section
variable {r : RawFrame} {v : ControlWord2Fields} {plain : List Byte}

/-- Without `more_header` the logical control word 2 is all zero (47_logical_pack.md R302). -/
theorem unpackedChunk_ctrl2_of_ne (hmore : moreHeaderField.get r.ctrl ≠ 1)
    (hv : unpackCtrl2Fields (moreHeaderField.get r.ctrl) r.ctrl2 = .ok v) :
    (unpackedChunk r v plain).ctrl2 = ⟨0, 0, 0, 0⟩ := by
  rw [unpackCtrl2Fields_of_ne hmore] at hv
  cases hv
  exact if_neg fun h => hmore h.1

/-- With it, it is that of the word, the byte count of the payload for its length when data is there
(47_logical_pack.md R302, R304). -/
theorem unpackedChunk_ctrl2_of_one {w : Bytes4} (hmore : moreHeaderField.get r.ctrl = 1)
    (hw : r.ctrl2 = some w)
    (hv : unpackCtrl2Fields (moreHeaderField.get r.ctrl) r.ctrl2 = .ok v) :
    (unpackedChunk r v plain).ctrl2 =
      ⟨if r.data.isSome = true then logicalDataLength plain.length
        else (dataLengthField.get w).setWidth 16,
        featureField.get w, negAnswerField.get w, freqSwitchField.get w⟩ := by
  rw [hmore, hw, unpackCtrl2Fields_of_one] at hv
  cases hv
  simp only [unpackedChunk, RawFrame.HasPayload, hmore, true_and]
  split_ifs <;> rfl

end

namespace Machine

/-- Settles O50: want of control word 2, the error of the payload, or the chunk, whose control word
2 is read with and without `more_header`. -/
theorem unpackCopiesAndOpensOrFirstError : Obligations.UnpackCopiesAndOpensOrFirstError := by
  rintro s r rfl
  refine ⟨_, exec_unpack s, State.conclude_operands .., ?_⟩
  by_cases hctrl2 : moreHeaderField.get s.operands.rawIn.ctrl = 1 ∧ s.operands.rawIn.ctrl2 = none
  · rw [if_pos hctrl2]
    obtain ⟨hmore, hnone⟩ := hctrl2
    exact (State.conclude_status_error_iff ..).2
      (unpackFrame_eq_error.2 (.inl ⟨hmore, hnone, rfl⟩))
  rw [if_neg hctrl2]
  intro opened hopened
  rw [← openPayload_eq] at hopened
  have hopened : openedPayload s.operands.rawIn s.operands.key = opened := hopened.symm
  cases opened with
  | error kind =>
    exact (State.conclude_status_error_iff ..).2 (unpackFrame_eq_error_of_opened hctrl2 hopened)
  | ok plain =>
    obtain ⟨v, hv⟩ := unpackCtrl2Fields_ok hctrl2
    rw [unpackFrame_eq_ok_iff.2 ⟨v, plain, hv, hopened, rfl⟩, State.conclude_ok]
    refine ⟨State.complete_status .., rfl, rfl, rfl, rfl, rfl, rfl, rfl, rfl, rfl, rfl, rfl,
      fun hmore => unpackedChunk_ctrl2_of_ne hmore hv, fun w hmore hw => ?_⟩
    rw [State.complete_chunkOut, unpackedChunk_ctrl2_of_one hmore hw hv]
    refine ⟨rfl, rfl, rfl, fun hnone => ?_, fun hdata hlength => ?_⟩
    · rw [hnone, if_neg (by simp), BitVec.toNat_setWidth]
      exact Nat.mod_eq_of_lt (by omega)
    · rw [if_pos (Option.isSome_iff_ne_none.2 hdata), logicalDataLength_toNat hlength]

end Machine

end Sys2Proof
end

section
/-! PROOFS. PACK, UNPACK, ENCODE and DECODE of a well-formed chunk and of a well-formed frame
(46_frame_encoder.md R278; 47_logical_pack.md R312 to R314). -/

namespace Sys2Proof

/-- What was sealed opens under the same key (42_aes_pkcs7.md R155). -/
theorem openPayload_sealPayload (key : Bytes16) (data : List Byte) :
    openPayload key (sealPayload key data) = .ok data := by
  rw [openPayload_eq, sealPayload_eq]
  split_ifs
  · rfl
  · exact aesDecrypt_aesEncrypt key data

theorem sealPayload_of_openPayload {key : Bytes16} {data plain : List Byte}
    (h : openPayload key data = .ok plain) : sealPayload key plain = data := by
  rw [openPayload_eq] at h
  rw [sealPayload_eq]
  split_ifs at h ⊢
  · exact (Except.ok.inj h).symm
  · exact aesEncrypt_of_aesDecrypt h

theorem sealPayload_length (key : Bytes16) (data : List Byte) :
    (sealPayload key data).length =
      if key = Config.zeroKey then data.length else 16 * (data.length / 16 + 1) := by
  rw [sealPayload_eq]
  split_ifs
  · rfl
  · exact aesEncrypt_length key data

/-- Only the empty payload has an empty ciphertext, and that under the null key. -/
theorem eq_nil_of_sealPayload_length {key : Bytes16} {data : List Byte}
    (h : ¬ 0 < (sealPayload key data).length) : data = [] := by
  rw [sealPayload_length] at h
  split_ifs at h
  · exact List.eq_nil_of_length_eq_zero (by omega)
  · omega

/-- What encoder step 6 answers is what is written. -/
theorem eq_writtenSecond {c : LogicalChunk} {key : Bytes16} {second : Option (Bytes4 × List Byte)}
    (h : encodeSecondHeader c key = .ok second) : second = writtenSecond c key := by
  unfold writtenSecond
  obtain ⟨hmore, -, rfl⟩ | ⟨hmore, rfl⟩ := encodeSecondHeader_eq_ok.1 h
  · rw [if_pos hmore]
  · rw [if_neg hmore]

/-- The bytes of the data section that are written. -/
theorem getD_encodeData_writtenSecond_length (c : LogicalChunk) (key : Bytes16) :
    ((encodeData (writtenSecond c key)).getD []).length =
      if c.ctrl.moreHeader = 1 then (sealPayload key c.data).length else 0 := by
  rw [encodeData_writtenSecond]
  by_cases hmore : c.ctrl.moreHeader = 1
  · by_cases hpos : 0 < (sealPayload key c.data).length
    · simp [hmore, hpos]
    · simp [hmore, Nat.eq_zero_of_not_pos hpos]
  · rw [if_neg hmore, if_neg fun h => hmore h.1]
    rfl

/-- The flags of control word 2 are read back from the word PACK writes. -/
theorem flags_encodeCtrl2 {c : LogicalChunk} {units : Nat}
    (hflags : c.ctrl2.feature ≤ 1 ∧ c.ctrl2.negAnswer ≤ 1 ∧ c.ctrl2.freqSwitch ≤ 1) :
    featureField.get (encodeCtrl2 c units) = c.ctrl2.feature ∧
      negAnswerField.get (encodeCtrl2 c units) = c.ctrl2.negAnswer ∧
      freqSwitchField.get (encodeCtrl2 c units) = c.ctrl2.freqSwitch := by
  have hget := get_packCtrl2
    (v := ⟨BitVec.ofNat 8 units, c.ctrl2.feature, c.ctrl2.negAnswer, c.ctrl2.freqSwitch, 0⟩) hflags
  simp only [ctrl2Fields, List.forall_mem_cons] at hget
  obtain ⟨-, hfeature, hnegAnswer, hfreqSwitch, -⟩ := hget
  exact ⟨hfeature, hnegAnswer, hfreqSwitch⟩

/-- A data section has at least one byte, so its CRC is there exactly when it is (R274). -/
theorem isSome_encodeData (second : Option (Bytes4 × List Byte)) :
    (encodeData second).isSome = decide (0 < ((encodeData second).getD []).length) := by
  cases second with
  | none => rfl
  | some v =>
    by_cases hpos : 0 < v.2.length
    · simp [encodeData, hpos]
    · simp [encodeData, hpos]

/-- The length of what ENCODE writes (30_encoding.md R72; 46_frame_encoder.md R278). -/
theorem serializeFrame_sealedFrame_length (c : LogicalChunk) (key : Bytes16)
    (destinationC : Option Address) (second : Option (Bytes4 × List Byte)) :
    (serializeFrame (sealedFrame c key destinationC second)).length =
      frameLen c.destinationsB.length destinationC.isSome second.isSome
        ((encodeData second).getD []).length := by
  have hcrc : (sealedFrame c key destinationC second).crcData.isSome =
      decide (0 < ((encodeData second).getD []).length) :=
    Option.isSome_map.trans (isSome_encodeData second)
  have hctrl2 : (sealedFrame c key destinationC second).ctrl2.isSome = second.isSome :=
    Option.isSome_map
  rw [serializeFrame_length, RawFrame.headerBytes_length, hcrc, hctrl2, frameLen_eq_headerLen_add]
  rfl

/-- The frame PACK gives for a well-formed chunk. -/
abbrev writtenFrame (c : LogicalChunk) (key : Bytes16) : RawFrame :=
  sealedFrame c key c.destinationC (writtenSecond c key)

/-- A one-bit field counts what is there exactly when it is 1. -/
theorem count_beq_one {b : Byte} (h : b ≤ 1) : count (b == 1) = b.toNat := by
  obtain rfl | rfl := Machine.eq_zero_or_one_of_le h
  · rfl
  · rfl

section
variable {c : LogicalChunk} {key : Bytes16} (h : c.WellFormed key)
include h

/-- PACK of a well-formed chunk, with the second control word and the ciphertext it writes. -/
theorem LogicalChunk.WellFormed.packChunk_writtenSecond :
    CountsData c (writtenSecond c key) ∧
      packChunk c key = .ok (writtenFrame c key) := by
  obtain ⟨second, hsecond, hcounts⟩ := h.encodeSecondHeader_ok
  obtain rfl := eq_writtenSecond hsecond
  have hdestC := h.encodeDestinationC_eq
  obtain ⟨-, -, hcount, -, -, hend, -⟩ := h
  exact ⟨hcounts, packChunk_eq_ok.2 ⟨hcount, hend, c.destinationC, _, hdestC, hsecond, rfl⟩⟩

/-- The logical length comes back: the byte count of the payload that is opened, or 0 units when
there is none (R302, R304). -/
theorem LogicalChunk.WellFormed.logicalDataLength_eq (hmore : c.ctrl.moreHeader = 1) :
    (if (encodeData (writtenSecond c key)).isSome = true then logicalDataLength c.data.length
      else (dataLengthField.get
        (encodeCtrl2 c ((sealPayload key c.data).length / 8))).setWidth 16) =
      c.ctrl2.dataLength := by
  obtain ⟨-, hflags, -, -, -, -, hlength, -⟩ := h
  have hlt := c.ctrl2.dataLength.isLt
  have hthere : (encodeData (writtenSecond c key)).isSome = true ↔
      0 < (sealPayload key c.data).length := by
    rw [isSome_encodeData, getD_encodeData_writtenSecond_length, if_pos hmore, decide_eq_true_iff]
  apply BitVec.eq_of_toNat_eq
  rw [hlength]
  split_ifs with hdata
  · exact logicalDataLength_toNat (by omega)
  · rw [hthere] at hdata
    have hzero : (sealPayload key c.data).length / 8 = 0 := by omega
    rw [hzero, eq_nil_of_sealPayload_length hdata, BitVec.toNat_setWidth,
      dataLengthField_encodeCtrl2 hflags (Nat.zero_le _)]
    rfl

/-- The fields of the second control word come back, all zero when there is none (R302). -/
theorem LogicalChunk.WellFormed.unpackedChunk_ctrl2 {v : ControlWord2Fields}
    (hv : unpackCtrl2Fields c.ctrl.moreHeader ((writtenSecond c key).map fun v => v.1) = .ok v) :
    (unpackedChunk (writtenFrame c key) v c.data).ctrl2 =
      c.ctrl2 := by
  have hget : moreHeaderField.get (encodeCtrl1 c) = c.ctrl.moreHeader :=
    congrArg ControlWord1Fields.moreHeader h.unpackCtrl1_encodeCtrl1
  rw [← hget] at hv
  by_cases hmore : c.ctrl.moreHeader = 1
  · have hword : (writtenSecond c key).map (fun v => v.1) =
        some (encodeCtrl2 c ((sealPayload key c.data).length / 8)) := by
      rw [writtenSecond, if_pos hmore]
      rfl
    have hdata := h.logicalDataLength_eq hmore
    obtain ⟨-, hflags, -⟩ := h
    obtain ⟨hfeature, hnegAnswer, hfreqSwitch⟩ := flags_encodeCtrl2 hflags
    rw [unpackedChunk_ctrl2_of_one (r := writtenFrame c key) (hget.trans hmore) hword hv, hfeature,
      hnegAnswer, hfreqSwitch]
    exact congrArg (fun n => (⟨n, _, _, _⟩ : ControlWord2Fields)) hdata
  · obtain ⟨hfits, -, -, -, -, -, -, habsent, -⟩ := h
    obtain ⟨-, -, -, -, -, -, -, hfit⟩ := hfits
    obtain ⟨-, hzero⟩ := habsent ((Machine.eq_zero_or_one_of_le hfit).resolve_right hmore)
    rw [hzero]
    exact unpackedChunk_ctrl2_of_ne (r := writtenFrame c key)
      (fun hone => hmore (hget.symm.trans hone)) hv

theorem LogicalChunk.WellFormed.openedPayload_sealedFrame :
    openedPayload (writtenFrame c key) key = .ok c.data := by
  have hget : moreHeaderField.get (encodeCtrl1 c) = c.ctrl.moreHeader :=
    congrArg ControlWord1Fields.moreHeader h.unpackCtrl1_encodeCtrl1
  have hsection : (writtenFrame c key).data =
      encodeData (writtenSecond c key) := rfl
  have hmoreHeader : moreHeaderField.get
      (writtenFrame c key).ctrl = c.ctrl.moreHeader := hget
  unfold openedPayload RawFrame.HasPayload
  rw [hmoreHeader, hsection, encodeData_writtenSecond]
  by_cases hpayload : c.ctrl.moreHeader = 1 ∧ 0 < (sealPayload key c.data).length
  · rw [if_pos hpayload, if_pos ⟨hpayload.1, rfl⟩]
    exact openPayload_sealPayload key c.data
  · rw [if_neg hpayload, if_neg (by simp)]
    obtain ⟨hfits, -, -, -, -, -, -, habsent, -⟩ := h
    obtain ⟨-, -, -, -, -, -, -, hfit⟩ := hfits
    obtain hmore | hmore := Machine.eq_zero_or_one_of_le hfit
    · rw [(habsent hmore).1]
    · rw [eq_nil_of_sealPayload_length fun hpos => hpayload ⟨hmore, hpos⟩]

end

/-- What comes back of a chunk that was packed: the chunk but for the marker, which is obfuscated,
and the two CRC fields, which are the computed ones (47_logical_pack.md R312). -/
def returnedChunk (c : LogicalChunk) (key : Bytes16) (r : RawFrame) : LogicalChunk :=
  { c with
    aris := arisEncrypt key c.aris
    crcHeader := unbe16 (crc16 r.headerBytes)
    crcData := (r.data.map fun d => unbe16 (crc16 d)).getD ⟨0, 0⟩ }

section
variable {c : LogicalChunk} {key : Bytes16} (h : c.WellFormed key)
include h

theorem LogicalChunk.WellFormed.unpackFrame_sealedFrame :
    unpackFrame (writtenFrame c key) key =
      .ok (returnedChunk c key (writtenFrame c key)) := by
  have hctrl := h.unpackCtrl1_encodeCtrl1
  obtain ⟨⟨hpresent, -⟩, -⟩ := h.packChunk_writtenSecond
  have hthere : ¬ (moreHeaderField.get (encodeCtrl1 c) = 1 ∧
      (writtenSecond c key).map (fun v => v.1) = none) := by
    rintro ⟨hmore, hnone⟩
    have hget : moreHeaderField.get (encodeCtrl1 c) = c.ctrl.moreHeader :=
      congrArg ControlWord1Fields.moreHeader hctrl
    rw [Option.map_eq_none_iff.1 hnone, ← hget, hmore] at hpresent
    cases hpresent
  obtain ⟨v, hv⟩ :=
    unpackCtrl2Fields_ok (r := writtenFrame c key) hthere
  have hctrl2 := h.unpackedChunk_ctrl2 (v := v) (by rw [← hctrl]; exact hv)
  refine unpackFrame_eq_ok_iff.2 ⟨v, c.data, hv, h.openedPayload_sealedFrame, ?_⟩
  calc returnedChunk c key (writtenFrame c key)
    _ = { returnedChunk c key (writtenFrame c key) with
          ctrl := unpackCtrl1 (encodeCtrl1 c)
          ctrl2 := (unpackedChunk (writtenFrame c key) v
            c.data).ctrl2 } := by rw [hctrl, hctrl2]; rfl
    _ = unpackedChunk (writtenFrame c key) v c.data := rfl

theorem LogicalChunk.WellFormed.count_le : c.destinationsB.length ≤ 255 := by
  obtain ⟨-, -, hcount, -⟩ := h
  exact hcount

/-- The bytes of the data section of R278. -/
theorem LogicalChunk.WellFormed.dataSection_le :
    ((encodeData (writtenSecond c key)).getD []).length ≤ 2040 := by
  rw [getD_encodeData_writtenSecond_length]
  split_ifs with hmore
  · obtain ⟨units, hunits, hlength⟩ := h.sealPayload_length hmore
    omega
  · exact Nat.zero_le _

/-- The length of what ENCODE writes for a well-formed chunk, in the terms of R278. -/
theorem LogicalChunk.WellFormed.serializeFrame_length :
    (serializeFrame (writtenFrame c key)).length =
      8 + 4 + 12 + 6 * c.destinationsB.length + 6 * c.ctrl.fromRelay.toNat +
        4 * c.ctrl.moreHeader.toNat + 2 + ((encodeData (writtenSecond c key)).getD []).length +
        2 * count (decide (0 < ((encodeData (writtenSecond c key)).getD []).length)) + 4 := by
  obtain ⟨⟨hpresent, -⟩, -⟩ := h.packChunk_writtenSecond
  obtain ⟨hfits, -, -, -, hdestC, -⟩ := h
  obtain ⟨-, -, hfrom, -, -, -, -, hmore⟩ := hfits
  have hdestC : c.destinationC.isSome = (c.ctrl.fromRelay == 1) := by
    rw [Bool.eq_iff_iff, beq_iff_eq, hdestC]
  rw [serializeFrame_sealedFrame_length, frameLen, hdestC, hpresent, count_beq_one hfrom,
    count_beq_one hmore]

end

namespace Machine

/-- Settles O45: the sections that are written are those R278 counts, and the ciphertext fits 255
units. -/
theorem encodeLengthOfWellFormedChunk : Obligations.EncodeLengthOfWellFormedChunk := by
  rintro s c n rfl hwf hn
  obtain ⟨-, hpack⟩ := hwf.packChunk_writtenSecond
  rw [← sealPayload_length, ← getD_encodeData_writtenSecond_length] at hn
  subst hn
  refine ⟨_, exec_encode_of_ok hpack, State.complete_status .., State.complete_operands ..,
    ?_, ?_, ?_⟩
  · rw [State.complete_out, hwf.serializeFrame_length]
    simp only [count, decide_eq_true_eq]
  · rw [State.complete_out, serializeFrame_sealedFrame_length]
    exact le_frameLen _ _ _ _
  · rw [State.complete_out, serializeFrame_sealedFrame_length]
    exact frameLen_le _ _ hwf.count_le hwf.dataSection_le

/-- Settles O47: PACK writes each section so that UNPACK reads the chunk's own field back. -/
theorem unpackUndoesPack : Obligations.UnpackUndoesPack := by
  intro s u hwf hkey
  obtain ⟨-, hpack⟩ := hwf.packChunk_writtenSecond
  refine ⟨_, exec_pack_of_ok hpack, State.complete_status .., fun hraw => ?_⟩
  rw [State.complete_rawOut] at hraw
  refine ⟨_, exec_unpack u, ?_⟩
  rw [hraw, hkey, hwf.unpackFrame_sealedFrame, State.conclude_ok]
  exact ⟨State.complete_status .., rfl⟩

end Machine

/-- Settles O48: DECODE reads back the frame that was sent, and UNPACK the chunk that was packed. -/
theorem receiveUndoesSend : Obligations.ReceiveUndoesSend := by
  intro c key hwf hmarker
  obtain ⟨hcounts, hpack⟩ := hwf.packChunk_writtenSecond
  have hsend : send c key = .ok
      (serializeFrame (writtenFrame c key)) := by
    rw [send, hpack]
    rfl
  have hdecode := decodeFrame_serializeFrame (hwf.sealedFrame_wellFormed hmarker hcounts)
  refine ⟨_, returnedChunk c key (writtenFrame c key), hsend,
    (encodeChunk_eq_send c key).trans hsend, ?_, rfl, rfl⟩
  rw [receive, hdecode]
  exact hwf.unpackFrame_sealedFrame

/-- A word without reserved bits is made up by its four fields (30_encoding.md R78, R79). -/
theorem packCtrl2_get {w : Bytes4} (hreserved : (be32 w).extractLsb' 0 21 = 0) :
    packCtrl2 (dataLengthField.get w) (featureField.get w) (negAnswerField.get w)
      (freqSwitchField.get w) = w := by
  have hword := packCtrl2Wire_unpackCtrl2 w
  have hzero : (unpackCtrl2 w).reserved.setWidth 32 = 0#32 := by
    show ((be32 w).extractLsb' 0 21).setWidth 32 = 0#32
    rw [hreserved]
    rfl
  rw [packCtrl2Wire, hzero, BitVec.or_zero, unbe32_be32] at hword
  exact hword

/-- A key whose last byte is 0 does not obfuscate the marker (44_aris_marker.md R204). -/
theorem arisEncrypt_of_last_eq_zero {key : Bytes16} (hlast : key.last = 0) (marker : Bytes4) :
    arisEncrypt key marker = marker :=
  if_neg (not_not_intro hlast)

section
variable {r : RawFrame} {netid : Bytes4} {key : Bytes16} (h : r.WellFormed netid key)
include h

/-- The count of destinations stands in control word 1 already (10_state.md R31). -/
theorem RawFrame.WellFormed.encodeCtrl1_unpackedChunk (v : ControlWord2Fields)
    (plain : List Byte) : encodeCtrl1 (unpackedChunk r v plain) = r.ctrl := by
  obtain ⟨hcount, -⟩ := h
  have hfield : BitVec.ofNat 8 r.destinationsB.length = destinationsField.get r.ctrl := by
    rw [hcount, BitVec.ofNat_toNat, BitVec.setWidth_eq]
  calc encodeCtrl1 (unpackedChunk r v plain)
    _ = packCtrl1 { unpackCtrl1 r.ctrl with
          destinations := BitVec.ofNat 8 r.destinationsB.length } := rfl
    _ = packCtrl1 (unpackCtrl1 r.ctrl) := by rw [hfield]; rfl
    _ = r.ctrl := packCtrl1_unpackCtrl1 r.ctrl

theorem RawFrame.WellFormed.encodeDestinationC_unpackedChunk (v : ControlWord2Fields)
    (plain : List Byte) : encodeDestinationC (unpackedChunk r v plain) = .ok r.destinationC := by
  obtain ⟨-, hdestC, -⟩ := h
  refine encodeDestinationC_eq_ok.2 ?_
  by_cases hfrom : fromField.get r.ctrl = 1
  · exact .inl ⟨hfrom, by rw [hdestC, hfrom]; rfl, rfl⟩
  · rw [beq_false_of_ne hfrom, Option.isSome_eq_false_iff] at hdestC
    exact .inr ⟨hfrom, Option.isNone_iff_eq_none.1 hdestC⟩

/-- The data section that is written again is the one that was there (R274). -/
theorem RawFrame.WellFormed.encodeData_eq :
    encodeData (r.ctrl2.map fun w => (w, r.data.getD [])) = r.data := by
  have hlength := h.data_length
  obtain ⟨-, -, -, hdata, -⟩ := h
  cases hctrl2 : r.ctrl2 with
  | none =>
    have hunits : r.wireUnits = 0 := by rw [RawFrame.wireUnits, hctrl2]; rfl
    rw [hunits, if_neg (by decide), Option.map_eq_none_iff] at hdata
    rw [hdata]
    rfl
  | some w =>
    cases hd : r.data with
    | none => rfl
    | some d =>
      have hpos : 0 < r.wireUnits := by
        by_contra hzero
        rw [if_neg hzero, hd] at hdata
        cases hdata
      rw [hd, Option.getD_some] at hlength
      exact if_pos (show 0 < d.length by omega)

theorem RawFrame.WellFormed.map_crcData :
    (r.data.map fun d => unbe16 (crc16 d)) = r.crcData := by
  obtain ⟨-, -, -, -, -, -, -, -, hcrc⟩ := h
  have hback := congrArg (Option.map unbe16) hcrc
  simp only [Option.map_map, Function.comp_def, unbe16_be16, Option.map_id'] at hback
  exact hback.symm

/-- The payload that was opened is sealed again to the data section, the empty one under the null
key only (46_frame_encoder.md R270; notes/assumptions/11.md). -/
theorem RawFrame.WellFormed.sealPayload_of_openedPayload {plain : List Byte}
    (hctrl2 : r.ctrl2.isSome = true) (hcorner : r.data.isSome = true ∨ key = Config.zeroKey)
    (hopened : openedPayload r key = .ok plain) : sealPayload key plain = r.data.getD [] := by
  obtain ⟨-, -, hmore, -⟩ := h
  rw [hctrl2, Eq.comm, beq_iff_eq] at hmore
  unfold openedPayload RawFrame.HasPayload at hopened
  rw [hmore] at hopened
  cases hdata : r.data with
  | none =>
    rw [hdata, if_neg (by simp)] at hopened
    rw [hdata, Option.isSome_none] at hcorner
    rw [sealPayload_eq, if_pos (hcorner.resolve_left Bool.false_ne_true)]
    exact (Except.ok.inj hopened).symm
  | some d =>
    rw [hdata, if_pos ⟨rfl, rfl⟩] at hopened
    exact sealPayload_of_openPayload hopened

/-- The second control word is written again from the fields and the count of units that were read
from it (46_frame_encoder.md R271, R272). -/
theorem RawFrame.WellFormed.encodeSecondHeader_unpackedChunk {v : ControlWord2Fields}
    {plain : List Byte}
    (hreserved : ∀ w, r.ctrl2 = some w → (be32 w).extractLsb' 0 21 = 0)
    (hcorner : r.ctrl2.isSome = true → r.data.isSome = true ∨ key = Config.zeroKey)
    (hv : unpackCtrl2Fields (moreHeaderField.get r.ctrl) r.ctrl2 = .ok v)
    (hopened : openedPayload r key = .ok plain) :
    encodeSecondHeader (unpackedChunk r v plain) key =
      .ok (r.ctrl2.map fun w => (w, r.data.getD [])) := by
  have hlength := h.data_length
  have hsealed := h.sealPayload_of_openedPayload (plain := plain)
  obtain ⟨-, -, hpresent, -⟩ := h
  refine encodeSecondHeader_eq_ok.2 ?_
  cases hctrl2 : r.ctrl2 with
  | none =>
    rw [hctrl2, Option.isSome_none, Eq.comm, beq_eq_false_iff_ne] at hpresent
    exact .inr ⟨hpresent, rfl⟩
  | some w =>
    have hsome : r.ctrl2.isSome = true := by rw [hctrl2]; rfl
    rw [hsome, Eq.comm, beq_iff_eq] at hpresent
    have hunits : r.wireUnits = (dataLengthField.get w).toNat := by
      rw [RawFrame.wireUnits, hctrl2]
      rfl
    have hsealed : sealPayload key (unpackedChunk r v plain).data = r.data.getD [] :=
      hsealed hsome (hcorner hsome) hopened
    have hcount : (r.data.getD []).length / 8 = (dataLengthField.get w).toNat := by omega
    have hword : encodeCtrl2 (unpackedChunk r v plain) (dataLengthField.get w).toNat = w := by
      rw [encodeCtrl2, unpackedChunk_ctrl2_of_one hpresent hctrl2 hv, BitVec.ofNat_toNat,
        BitVec.setWidth_eq]
      exact packCtrl2_get (hreserved w hctrl2)
    refine .inl ⟨hpresent, ?_, ?_⟩
    · rw [hsealed, hcount]
      exact Nat.le_of_lt_succ (dataLengthField.get w).isLt
    · rw [hsealed, hcount, hword]
      rfl

/-- PACK writes each section of the chunk as it stood in the frame (47_logical_pack.md R314). -/
theorem RawFrame.WellFormed.packedFrame_unpackedChunk (hlast : key.last = 0)
    (v : ControlWord2Fields) (plain : List Byte) :
    packedFrame (unpackedChunk r v plain) key r.destinationC
        (r.ctrl2.map fun w => (w, r.data.getD [])) =
      { r with crcHeader := ⟨0, 0⟩ } := by
  have hctrl2 : (r.ctrl2.map fun w => (w, r.data.getD [])).map (fun v => v.1) = r.ctrl2 := by
    simp only [Option.map_map, Function.comp_def, Option.map_id']
  have hctrl := h.encodeCtrl1_unpackedChunk v plain
  rw [packedFrame, hctrl2, h.encodeData_eq, h.map_crcData, hctrl]
  exact congrArg (fun m => ({ r with aris := m, crcHeader := ⟨0, 0⟩ } : RawFrame))
    (arisEncrypt_of_last_eq_zero hlast r.aris)

theorem RawFrame.WellFormed.sealedFrame_unpackedChunk (hlast : key.last = 0)
    (v : ControlWord2Fields) (plain : List Byte) :
    sealedFrame (unpackedChunk r v plain) key r.destinationC
        (r.ctrl2.map fun w => (w, r.data.getD [])) = r := by
  have hpacked := h.packedFrame_unpackedChunk hlast v plain
  obtain ⟨-, -, -, -, -, -, -, hcrc, -⟩ := h
  have hcrc : unbe16 (crc16 r.headerBytes) = r.crcHeader := by rw [← hcrc, unbe16_be16]
  rw [sealedFrame, hpacked]
  exact congrArg (fun crc => ({ r with crcHeader := crc } : RawFrame)) hcrc

end

namespace Machine

/-- When UNPACK ends with `Ok`, `CHUNK_OUT` is the chunk unpacked (47_logical_pack.md R305). -/
theorem exec_unpack_ok {s t : State} (hexec : exec .unpack s = .next t)
    (hok : t.results.status = .ok) :
    unpackFrame s.operands.rawIn s.operands.key = .ok t.results.chunkOut := by
  rw [exec_unpack] at hexec
  cases hexec
  obtain ⟨c, hc⟩ := (State.conclude_status_ok_iff ..).1 hok
  rw [hc, State.conclude_ok, State.complete_chunkOut]

/-- Settles O49: each section is written as it was read, the marker because the key byte is 0, the
second control word because it has no reserved bits, the data because the payload is sealed again to
the bytes that were opened. -/
theorem packUndoesUnpack : Obligations.PackUndoesUnpack := by
  intro s t u netid hwf hlast hreserved hcorner hexec hok hkey hchunk
  obtain ⟨v, plain, hv, hopened, hunpacked⟩ := unpackFrame_eq_ok_iff.1 (exec_unpack_ok hexec hok)
  have hpack : packChunk u.operands.chunkIn u.operands.key = .ok s.operands.rawIn := by
    have hframe := hwf.sealedFrame_unpackedChunk hlast v plain
    have hdestC := hwf.encodeDestinationC_unpackedChunk v plain
    have hsecond := hwf.encodeSecondHeader_unpackedChunk hreserved hcorner hv hopened
    obtain ⟨hcount, -, -, -, hid, hend, -⟩ := hwf
    have hle : s.operands.rawIn.destinationsB.length ≤ 255 :=
      hcount ▸ Nat.le_of_lt_succ (destinationsField.get s.operands.rawIn.ctrl).isLt
    rw [hchunk, hkey, hunpacked]
    exact packChunk_eq_ok.2
      ⟨hle, hend.trans hid.symm, _, _, hdestC, hsecond, hframe.symm⟩
  exact ⟨_, exec_pack_of_ok hpack, State.complete_status .., State.complete_rawOut ..⟩

end Machine

end Sys2Proof
end

section
/-! PROOFS. DECODE of a well-formed frame, whatever follows it (45_frame_decoder.md R233), and of
such a frame with one bit flipped, region by region (R236). -/

namespace Sys2Proof

open Machine

section
variable {a : List Byte} {p k : Nat}

theorem flipBit_append_left (b : List Byte) (h : p < a.length) :
    flipBit (a ++ b) p k = flipBit a p k ++ b := by
  rw [flipBit, flipBit, List.set_append_left _ _ h, List.getD_append _ _ _ _ h]

theorem flipBit_append_add (a b : List Byte) (p k : Nat) :
    flipBit (a ++ b) (a.length + p) k = a ++ flipBit b p k := by
  rw [flipBit, flipBit, List.set_append_right _ _ (Nat.le_add_right ..),
    List.getD_append_right _ _ _ _ (Nat.le_add_right ..), Nat.add_sub_cancel_left]

theorem flipBit_length (l : List Byte) : (flipBit l p k).length = l.length :=
  List.length_set

end

/-- A word with bit `k` of byte `j` flipped. -/
def Bytes4.flip (v : Bytes4) (j k : Nat) : Bytes4 := Bytes4.ofList (flipBit v.toList j k)

section
variable (v : Bytes4) {j k : Nat}

theorem Bytes4.toList_flip : (v.flip j k).toList = flipBit v.toList j k :=
  Bytes4.toList_ofList (flipBit_length _)

theorem Bytes4.flip_ne (hj : j < 4) (hk : k < 8) : v.flip j k ≠ v := by
  intro h
  have hsame : flipBit v.toList j k = v.toList := by rw [← v.toList_flip, h]
  exact crc16_flipBit_ne (span := v.toList) hj hk (by rw [hsame])

/-- A flipped bit is an exclusive or with the word that has that bit alone. -/
theorem Bytes4.flip_eq_xor (hj : j < 4) : v.flip j k = v.xor (zeroWord.flip j k) := by
  obtain rfl | rfl | rfl | rfl : j = 0 ∨ j = 1 ∨ j = 2 ∨ j = 3 := by omega
  all_goals simp [Bytes4.flip, Bytes4.xor, flipBit, zeroWord, Bytes4.ofList, Bytes4.toList]

end

/-- A flipped bit of a word at the start of a span. -/
theorem flipBit_word_append (v : Bytes4) (b : List Byte) {j : Nat} (hj : j < 4) (k : Nat) :
    flipBit (v.toList ++ b) j k = (v.flip j k).toList ++ b := by
  rw [flipBit_append_left b hj, v.toList_flip]

/-- A flipped bit behind the first three words of a span. -/
theorem flipBit_words_append (u v w : Bytes4) (b : List Byte) (p k : Nat) :
    flipBit (u.toList ++ (v.toList ++ (w.toList ++ b))) (12 + p) k =
      u.toList ++ (v.toList ++ (w.toList ++ flipBit b p k)) := by
  have hwords := flipBit_append_add (u.toList ++ (v.toList ++ w.toList)) b p k
  simp only [List.append_assoc] at hwords
  exact hwords

/-- A flipped bit of the third word of a span. -/
theorem flipBit_third_word (u v w : Bytes4) (b : List Byte) {j : Nat} (hj : j < 4) (k : Nat) :
    flipBit (u.toList ++ (v.toList ++ (w.toList ++ b))) (8 + j) k =
      u.toList ++ (v.toList ++ ((w.flip j k).toList ++ b)) := by
  have hwords := flipBit_append_add (u.toList ++ v.toList) (w.toList ++ b) j k
  rw [flipBit_word_append w b hj] at hwords
  simp only [List.append_assoc] at hwords
  exact hwords

theorem be32_xor (v w : Bytes4) : be32 (v.xor w) = be32 v ^^^ be32 w := by
  apply BitVec.eq_of_getLsbD_eq
  intro i _
  simp only [be32_getLsbD, BitVec.getLsbD_xor, Bytes4.xor]
  split_ifs <;> rfl

/-- The bits of control word 1, by byte, that do not change the parse: those of `version`, `option`,
`sequence`, `retry`, `more_data` and `identifier` (30_encoding.md R75; 45_frame_decoder.md R236). -/
abbrev KeepsParse (j k : Nat) : Prop :=
  (j = 0 ∧ 4 ≤ k) ∨ (j = 1 ∧ 1 ≤ k ∧ k ≤ 3) ∨ j = 2 ∨ (j = 3 ∧ 1 ≤ k)

/-- None of these bits is under the mask of a field the decoder takes from control word 1 (R224). -/
theorem flip_and_mask_of_keepsParse :
    ∀ j < 4, ∀ k < 8, KeepsParse j k →
      ∀ f ∈ [destinationsField, fromField, moreHeaderField],
        be32 (zeroWord.flip j k) &&& f.mask = 0#32 := by decide

theorem xor_and_of_disjoint {n : Nat} {x m : BitVec n} (y : BitVec n) (h : x &&& m = 0#n) :
    (y ^^^ x) &&& m = y &&& m := by
  have hdistrib : (y ^^^ x) &&& m = (y &&& m) ^^^ (x &&& m) := by
    apply BitVec.eq_of_getLsbD_eq
    intro i _
    simp only [BitVec.getLsbD_and, BitVec.getLsbD_xor, Bool.and_xor_distrib_right]
  rw [hdistrib, h, BitVec.xor_zero]

theorem get_flip_of_keepsParse (v : Bytes4) {j k : Nat} (hj : j < 4) (hk : k < 8)
    (hkeeps : KeepsParse j k) {f : FieldDescriptor}
    (hf : f ∈ [destinationsField, fromField, moreHeaderField]) :
    f.get (v.flip j k) = f.get v := by
  refine f.get_congr ?_
  rw [v.flip_eq_xor hj, be32_xor]
  exact xor_and_of_disjoint _ (flip_and_mask_of_keepsParse j hj k hk hkeeps f hf)

/-- The length of the header region that control word 1 fixes (30_encoding.md R73). -/
def headerLenOf (ctrl : Bytes4) : Nat :=
  headerLen (destinationsField.get ctrl).toNat (fromField.get ctrl == 1)
    (moreHeaderField.get ctrl == 1)

theorem headerLenOf_flip (v : Bytes4) {j k : Nat} (hj : j < 4) (hk : k < 8)
    (hkeeps : KeepsParse j k) : headerLenOf (v.flip j k) = headerLenOf v := by
  unfold headerLenOf
  rw [get_flip_of_keepsParse v hj hk hkeeps (f := destinationsField) (by decide),
    get_flip_of_keepsParse v hj hk hkeeps (f := fromField) (by decide),
    get_flip_of_keepsParse v hj hk hkeeps (f := moreHeaderField) (by decide)]

/-- The sections from `origin` to `crc_header` (30_encoding.md R72). -/
def RawFrame.fieldBytes (r : RawFrame) : List Byte :=
  r.origin.toList ++ (r.destinationA.toList ++ (r.destinationsB.flatMap Address.toList ++
    (optionBytes Address.toList r.destinationC ++ (optionBytes Bytes4.toList r.ctrl2 ++
      r.crcHeader.toList))))

/-- The data section with its CRC (30_encoding.md R72). -/
def RawFrame.payloadBytes (r : RawFrame) : List Byte :=
  r.data.getD [] ++ optionBytes Bytes2.toList r.crcData

section
variable (r : RawFrame)

theorem RawFrame.headerBytes_append_crcHeader :
    r.headerBytes ++ r.crcHeader.toList =
      r.id.toList ++ (r.aris.toList ++ (r.ctrl.toList ++ r.fieldBytes)) := by
  rw [r.headerBytes_eq, RawFrame.fieldBytes]
  simp only [List.append_assoc]

theorem RawFrame.fieldBytes_length : r.fieldBytes.length + 12 = r.headerBytes.length + 2 := by
  have hsame := congrArg List.length r.headerBytes_append_crcHeader
  simp only [List.length_append, Bytes2.toList_length, Bytes4.toList_length] at hsame
  omega

/-- A frame followed by other bytes, cut at the regions of R236. -/
theorem serializeFrame_append_eq (rest : List Byte) :
    serializeFrame r ++ rest =
      r.id.toList ++ (r.aris.toList ++ (r.ctrl.toList ++ (r.fieldBytes ++
        (r.payloadBytes ++ (r.frameEnd.toList ++ rest))))) := by
  have hheader := congrArg (· ++ (r.payloadBytes ++ (r.frameEnd.toList ++ rest)))
    r.headerBytes_append_crcHeader
  simp only [List.append_assoc] at hheader
  rw [← hheader, serializeFrame_eq, RawFrame.payloadBytes]
  simp only [List.append_assoc]

theorem serializeFrame_length_eq :
    (serializeFrame r).length = r.headerBytes.length + 2 + r.payloadBytes.length + 4 := by
  rw [serializeFrame_eq, RawFrame.payloadBytes]
  simp only [List.length_append, Bytes2.toList_length, Bytes4.toList_length]
  omega

end

/-- A flipped bit behind the header CRC of a frame. -/
theorem serializeFrame_flipBit (r : RawFrame) (rest : List Byte) (p k : Nat) :
    flipBit (serializeFrame r ++ rest) (r.headerBytes.length + 2 + p) k =
      (r.headerBytes ++ r.crcHeader.toList) ++
        flipBit (r.payloadBytes ++ (r.frameEnd.toList ++ rest)) p k := by
  have hbytes : serializeFrame r ++ rest = (r.headerBytes ++ r.crcHeader.toList) ++
      (r.payloadBytes ++ (r.frameEnd.toList ++ rest)) := by
    rw [serializeFrame_append_eq, r.headerBytes_append_crcHeader]
    simp only [List.append_assoc]
  have hlength : r.headerBytes.length + 2 = (r.headerBytes ++ r.crcHeader.toList).length := by
    rw [List.length_append, Bytes2.toList_length]
  rw [hbytes, hlength, flipBit_append_add]

section
variable {r : RawFrame} {netid : Bytes4} {key : Bytes16} (h : r.WellFormed netid key)
include h

/-- DECODE of the bytes of a well-formed frame, whatever follows them (20_memory.md R62). -/
theorem decodeFrame_serializeFrame_append (rest : List Byte) :
    decodeFrame (serializeFrame r ++ rest) key netid = .ok (r, (serializeFrame r).length) :=
  decodeFrame_eq_ok_iff.2 ⟨h, rfl, by rw [List.drop_left]⟩

theorem RawFrame.WellFormed.headerBytes_length_eq :
    r.headerBytes.length = headerLenOf r.ctrl := by
  obtain ⟨hcount, hdestC, hctrl2, -⟩ := h
  rw [r.headerBytes_length, hcount, hdestC, hctrl2, headerLenOf]

theorem RawFrame.WellFormed.arisDecrypt_ok : arisDecrypt key r.aris = .ok () := by
  obtain ⟨-, -, -, -, -, -, haris, -⟩ := h
  exact arisDecrypt_eq_ok.2 haris

/-- The header region with its stored CRC has residue 0 (41_crc16.md R125). -/
theorem RawFrame.WellFormed.crc16_header :
    crc16 (r.id.toList ++ (r.aris.toList ++ (r.ctrl.toList ++ r.fieldBytes))) = 0 := by
  obtain ⟨-, -, -, -, -, -, -, hcrc, -⟩ := h
  have hstored : r.crcHeader = unbe16 (crc16 r.headerBytes) := by rw [← hcrc, unbe16_be16]
  rw [← r.headerBytes_append_crcHeader, hstored]
  exact crc16_append_unbe16 _

theorem RawFrame.WellFormed.crcData_isSome_eq :
    r.crcData.isSome = decide (0 < r.wireUnits) := by
  rw [h.crcData_isSome]
  simp

theorem RawFrame.WellFormed.payloadBytes_length :
    r.payloadBytes.length = 8 * r.wireUnits + 2 * count (decide (0 < r.wireUnits)) := by
  rw [RawFrame.payloadBytes, List.length_append, h.data_length,
    optionBytes_length Bytes2.toList_length, h.crcData_isSome_eq]

/-- Data comes with its CRC or not at all, and the CRC is right (10_state.md R31). -/
theorem RawFrame.WellFormed.payload_cases :
    (r.wireUnits = 0 ∧ r.data = none ∧ r.crcData = none) ∨
    (0 < r.wireUnits ∧ ∃ d c, r.data = some d ∧ r.crcData = some c ∧ be16 c = crc16 d) := by
  obtain ⟨-, -, -, hdata, -, -, -, -, hcrc⟩ := h
  by_cases hunits : 0 < r.wireUnits
  · rw [if_pos hunits, Option.map_eq_some_iff] at hdata
    obtain ⟨d, hd, -⟩ := hdata
    rw [hd, Option.map_some, Option.map_eq_some_iff] at hcrc
    obtain ⟨c, hc, hsame⟩ := hcrc
    exact .inr ⟨hunits, d, c, hd, hc, hsame⟩
  · rw [if_neg hunits, Option.map_eq_none_iff] at hdata
    rw [hdata, Option.map_none, Option.map_eq_none_iff] at hcrc
    exact .inl ⟨Nat.eq_zero_of_not_pos hunits, hdata, hcrc⟩

/-- The data section with its stored CRC has residue 0 (41_crc16.md R125). -/
theorem RawFrame.WellFormed.crc16_payloadBytes (hunits : 0 < r.wireUnits) :
    crc16 r.payloadBytes = 0 := by
  obtain ⟨hzero, -⟩ | ⟨-, d, c, hd, hc, hcrc⟩ := h.payload_cases
  · omega
  · have hbytes : r.payloadBytes = d ++ c.toList := by rw [RawFrame.payloadBytes, hd, hc]; rfl
    rw [hbytes, ← unbe16_be16 c, hcrc]
    exact crc16_append_unbe16 d

end

namespace Machine

theorem exec_decode_of_ok {s : State} {r : RawFrame} {n : Nat}
    (h : decodeFrame s.operands.input s.operands.key s.operands.netid = .ok (r, n)) :
    exec .decode s =
      .next (s.complete { s.undriven with rawOut := r, consumed := BitVec.ofNat 16 n }) := by
  rw [exec_decode, h, State.conclude_ok]

/-- Settles O36: the frame decoder reads the frame back, and its length fits `CONSUMED`. -/
theorem decodeAcceptsWellFormedFrame : Obligations.DecodeAcceptsWellFormedFrame := by
  intro s r rest hwf hinput
  have hlength := hwf.serializeFrame_length_le
  have hdecode := decodeFrame_serializeFrame_append hwf rest
  rw [← hinput] at hdecode
  refine ⟨_, exec_decode_of_ok hdecode, State.complete_status .., State.complete_rawOut .., ?_,
    State.complete_operands ..⟩
  rw [State.complete_consumed]
  exact Nat.mod_eq_of_lt (by omega)

end Machine

end Sys2Proof
end

section
/-! PROOFS. The checks of DECODE beyond the marker (45_frame_decoder.md R229 to R231): what fails
each of them, and so what one flipped bit gives, region by region (R236). -/

namespace Sys2Proof

namespace Machine

section
variable {span : List Byte} {p : Nat}

/-! A read that is inside its span succeeds (20_memory.md R52). -/

theorem readBytes2_ok (h : p + 2 ≤ span.length) : ∃ v, readBytes2 span p = .ok v := by
  cases hread : readBytes2 span p with
  | ok v => exact ⟨v, rfl⟩
  | error kind => exact absurd (readBytes2_eq_error.1 hread).1 (Nat.not_lt.2 h)

theorem readBytes4_ok (h : p + 4 ≤ span.length) : ∃ v, readBytes4 span p = .ok v := by
  cases hread : readBytes4 span p with
  | ok v => exact ⟨v, rfl⟩
  | error kind => exact absurd (readBytes4_eq_error.1 hread).1 (Nat.not_lt.2 h)

theorem readAddress_ok (h : p + 6 ≤ span.length) : ∃ v, readAddress span p = .ok v := by
  cases hread : readAddress span p with
  | ok v => exact ⟨v, rfl⟩
  | error kind => exact absurd (readAddress_eq_error.1 hread).1 (Nat.not_lt.2 h)

theorem readAddresses_ok {n : Nat} (h : p + 6 * n ≤ span.length) :
    ∃ v, readAddresses span p n = .ok v := by
  cases hread : readAddresses span p n with
  | ok v => exact ⟨v, rfl⟩
  | error kind => exact absurd (readAddresses_eq_error.1 hread).2.1 (Nat.not_lt.2 h)

theorem readOptional_ok {α : Type} {present : Bool} {read : Except ErrorKind α}
    (h : present = true → ∃ v, read = .ok v) : ∃ v, readOptional present read = .ok v := by
  cases present with
  | false => exact ⟨none, rfl⟩
  | true =>
    obtain ⟨v, hv⟩ := h rfl
    exact ⟨some v, readOptional_eq_ok.2 (.inl ⟨rfl, v, hv, rfl⟩)⟩

end

section
variable (a b b' : List Byte) {p n : Nat}

/-! A read inside the first part of a span does not depend on the second. -/

theorem memRead_append_congr (h : p + n ≤ a.length) :
    memRead (a ++ b') p n = memRead (a ++ b) p n := by
  rw [memRead_append_left h, memRead_append_left h]

theorem readBytes2_append_congr (h : p + 2 ≤ a.length) :
    readBytes2 (a ++ b') p = readBytes2 (a ++ b) p :=
  congrArg (Except.map Bytes2.ofList) (memRead_append_congr a b b' h)

theorem readBytes4_append_congr (h : p + 4 ≤ a.length) :
    readBytes4 (a ++ b') p = readBytes4 (a ++ b) p :=
  congrArg (Except.map Bytes4.ofList) (memRead_append_congr a b b' h)

theorem readAddress_append_congr (h : p + 6 ≤ a.length) :
    readAddress (a ++ b') p = readAddress (a ++ b) p :=
  congrArg (Except.map Address.ofList) (memRead_append_congr a b b' h)

theorem readAddresses_append_congr (h : p + 6 * n ≤ a.length) :
    readAddresses (a ++ b') p n = readAddresses (a ++ b) p n := by
  induction n generalizing p with
  | zero => rfl
  | succ n ih =>
    rw [readAddresses, readAddresses, readAddress_append_congr a b b' (by omega), ih (by omega)]

theorem readOptional_congr {α : Type} {present : Bool} {x y : Except ErrorKind α}
    (h : present = true → x = y) : readOptional present x = readOptional present y := by
  cases present with
  | false => rfl
  | true => rw [h rfl]

/-- A read in the second part of a span. -/
theorem memRead_append_right (p n : Nat) :
    memRead (a ++ b) (a.length + p) n = memRead b p n := by
  have hlength : (a ++ b).length < a.length + p + n ↔ b.length < p + n := by
    rw [List.length_append]
    omega
  simp only [memRead, hlength, ← List.drop_drop, List.drop_left]

theorem readBytes2_append_right (p : Nat) :
    readBytes2 (a ++ b) (a.length + p) = readBytes2 b p :=
  congrArg (Except.map Bytes2.ofList) (memRead_append_right a b p 2)

theorem readBytes4_append_right (p : Nat) :
    readBytes4 (a ++ b) (a.length + p) = readBytes4 b p :=
  congrArg (Except.map Bytes4.ofList) (memRead_append_right a b p 4)

end

/-- A stored CRC that is right leaves residue 0 (41_crc16.md R125). -/
theorem crc16_take_of_stored {span : List Byte} {p : Nat} {c : Bytes2}
    (hread : readBytes2 span p = .ok c) (hcrc : be16 c = crc16 (span.take p)) :
    crc16 (span.take (p + 2)) = 0 := by
  obtain ⟨-, hbytes⟩ := readBytes2_eq_ok.1 hread
  rw [List.take_add, ← hbytes, ← unbe16_be16 c, hcrc]
  exact crc16_append_unbe16 _

/-- The header CRC is checked over the region that control word 1 fixes, whatever its other fields
hold (45_frame_decoder.md R229): in a span that holds the region, a wrong residue is the first error
after the marker. -/
theorem decodeFrame_of_residue_ne {input : List Byte} {key : Bytes16} {netid marker ctrl : Bytes4}
    (hid : readBytes4 input 0 = .ok netid) (haris : readBytes4 input 4 = .ok marker)
    (hmarker : arisDecrypt key marker = .ok ()) (hctrl : readBytes4 input 8 = .ok ctrl)
    (hlong : headerLenOf ctrl + 2 ≤ input.length)
    (hcrc : crc16 (input.take (headerLenOf ctrl + 2)) ≠ 0) :
    decodeFrame input key netid = .error .notSameCrcHeader := by
  have hheader : headerLenOf ctrl = 24 + 6 * (destinationsField.get ctrl).toNat +
    6 * count (fromField.get ctrl == 1) + 4 * count (moreHeaderField.get ctrl == 1) := rfl
  obtain ⟨origin, horigin⟩ := readAddress_ok (span := input) (p := 12) (by omega)
  obtain ⟨destinationA, hdestA⟩ := readAddress_ok (span := input) (p := 18) (by omega)
  obtain ⟨destinationsB, hdestB⟩ := readAddresses_ok (span := input) (p := 24)
    (n := (destinationsField.get ctrl).toNat) (by omega)
  obtain ⟨destinationC, hdestC⟩ := readOptional_ok (present := fromField.get ctrl == 1)
    (read := readAddress input (24 + 6 * (destinationsField.get ctrl).toNat)) fun hfrom =>
      readAddress_ok (by rw [hfrom, count, if_pos rfl] at hheader; omega)
  obtain ⟨ctrl2, hctrl2⟩ := readOptional_ok (present := moreHeaderField.get ctrl == 1)
    (read := readBytes4 input (24 + 6 * (destinationsField.get ctrl).toNat +
      6 * count (fromField.get ctrl == 1))) fun hmore =>
      readBytes4_ok (by rw [hmore] at hheader; simp only [count, if_true] at hheader ⊢; omega)
  obtain ⟨stored, hstored⟩ := readBytes2_ok hlong
  have hne : (be16 stored == crc16 (input.take (headerLenOf ctrl))) = false :=
    beq_eq_false_iff_ne.2 fun h => hcrc (crc16_take_of_stored hstored h)
  rw [headerLenOf] at hstored hne
  simp only [decodeFrame, hid, haris, hctrl, horigin, hdestA, hdestB, hdestC, hctrl2, hstored, hne,
    hmarker, ok_bind, beq_self_eq_true, check_true, check_false, error_bind]

/-- The same of a span given by its parts. -/
theorem decodeFrame_of_crcHeader_ne {key : Bytes16} {netid marker ctrl : Bytes4}
    {fields : List Byte} (hmarker : arisDecrypt key marker = .ok ())
    (hlength : fields.length + 12 = headerLenOf ctrl + 2)
    (hcrc : crc16 (netid.toList ++ (marker.toList ++ (ctrl.toList ++ fields))) ≠ 0)
    (rest : List Byte) :
    decodeFrame (netid.toList ++ (marker.toList ++ (ctrl.toList ++ (fields ++ rest)))) key netid =
      .error .notSameCrcHeader := by
  have hfront : (netid.toList ++ (marker.toList ++ (ctrl.toList ++ fields))).length =
      headerLenOf ctrl + 2 := by
    simp only [List.length_append, Bytes4.toList_length]
    omega
  have htake := List.take_left' (l₂ := rest) hfront
  have hctrl := readBytes4_middle (netid.toList ++ marker.toList) ctrl (fields ++ rest)
  simp only [List.append_assoc] at htake hctrl
  refine decodeFrame_of_residue_ne (readBytes4_zero netid _)
    (readBytes4_middle netid.toList marker _) hmarker hctrl ?_ (htake ▸ hcrc)
  simp only [List.length_append, Bytes4.toList_length]
  omega

/-- What DECODE does with the bytes after `crc_header`, with `r` the frame read so far
(45_frame_decoder.md R230 to R232). -/
def decodeBody (span : List Byte) (netid : Bytes4) (r : RawFrame) :
    Except ErrorKind (RawFrame × Nat) := do
  let n := 8 * r.wireUnits
  let hasData := decide (0 < r.wireUnits)
  let data ← readOptional hasData (memRead span 0 n)
  let crcData ← readOptional hasData (readBytes2 span n)
  check (match data, crcData with
    | some bytes, some stored => be16 stored == crc16 bytes
    | _, _ => true) .notSameCrcData
  let frameEnd ← readBytes4 span (n + 2 * count hasData)
  check (frameEnd == netid) .notSameEnd
  .ok ({ r with data := data, crcData := crcData, frameEnd := frameEnd },
    headerLenOf r.ctrl + 2 + n + 2 * count hasData + 4)

/-- DECODE of a span that begins with the header and header CRC of a frame that was decoded: the
header is read and checked alike, and what follows is read as the rest says. -/
theorem decodeFrame_eq_decodeBody {a b : List Byte} {key : Bytes16} {netid : Bytes4} {r : RawFrame}
    {n : Nat} (hok : decodeFrame (a ++ b) key netid = .ok (r, n))
    (ha : a.length = headerLenOf r.ctrl + 2) (rest : List Byte) :
    decodeFrame (a ++ rest) key netid = decodeBody rest netid r := by
  obtain ⟨⟨hid, hid'⟩, ⟨haris, haris'⟩, hctrl, horigin, hdestA, hdestB, hdestC, hctrl2, hcrc⟩ :=
    decodeFrame_eq_ok.1 hok
  obtain ⟨⟨hcrc, hcrc'⟩, -⟩ := hcrc (headerLenOf r.ctrl) rfl
  have hheader : headerLenOf r.ctrl = 24 + 6 * (destinationsField.get r.ctrl).toNat +
    6 * count (fromField.get r.ctrl == 1) + 4 * count (moreHeaderField.get r.ctrl == 1) := rfl
  rw [← readBytes4_append_congr a b rest (by omega)] at hid haris hctrl
  rw [← readAddress_append_congr a b rest (by omega)] at horigin hdestA
  rw [← readAddresses_append_congr a b rest (by omega)] at hdestB
  rw [← readOptional_congr fun hfrom => readAddress_append_congr a b rest
    (by rw [hfrom, count, if_pos rfl] at hheader; omega)] at hdestC
  rw [← readOptional_congr fun hmore => readBytes4_append_congr a b rest
    (by rw [hmore] at hheader; simp only [count, if_true] at hheader ⊢; omega)] at hctrl2
  rw [← readBytes2_append_congr a b rest (by omega)] at hcrc
  have htake : (a ++ b).take (headerLenOf r.ctrl) = (a ++ rest).take (headerLenOf r.ctrl) := by
    rw [List.take_append_of_le_length (by omega), List.take_append_of_le_length (by omega)]
  have hcheck : (be16 r.crcHeader == crc16 ((a ++ rest).take (headerLenOf r.ctrl))) = true :=
    beq_iff_eq.2 (htake ▸ hcrc')
  have hdata := memRead_append_right a rest 0 (8 * r.wireUnits)
  have hcrcData := readBytes2_append_right a rest (8 * r.wireUnits)
  have hend := readBytes4_append_right a rest
    (8 * r.wireUnits + 2 * count (decide (0 < r.wireUnits)))
  rw [ha] at hdata hcrcData hend
  rw [Nat.add_zero] at hdata
  rw [← Nat.add_assoc] at hend
  have hsame : (r.id == netid) = true := beq_iff_eq.2 hid'
  have hmarker : arisDecrypt key r.aris = .ok () := arisDecrypt_eq_ok.2 haris'
  have hunits : Config.unit * wireUnits r.ctrl2 = 8 * r.wireUnits := rfl
  have hthere : decide (0 < 8 * r.wireUnits) = decide (0 < r.wireUnits) := by simp
  rw [headerLenOf] at hcrc hcheck hdata hcrcData hend
  simp only [decodeFrame, hid, haris, hctrl, horigin, hdestA, hdestB, hdestC, hctrl2, hcrc, hcheck,
    hsame, hmarker, hunits, hthere, hdata, hcrcData, hend, ok_bind, check_true]
  rfl

/-- The data CRC is checked over the units that control word 2 counts (45_frame_decoder.md R230): a
wrong residue is the first error. -/
theorem decodeBody_of_crcData_ne {v : List Byte} {r : RawFrame} (hunits : 0 < r.wireUnits)
    (hlength : v.length = 8 * r.wireUnits + 2) (hcrc : crc16 v ≠ 0) (netid : Bytes4)
    (rest : List Byte) : decodeBody (v ++ rest) netid r = .error .notSameCrcData := by
  have hlong : 8 * r.wireUnits + 2 ≤ (v ++ rest).length := by
    rw [List.length_append]
    omega
  have hdata : memRead (v ++ rest) 0 (8 * r.wireUnits) =
      .ok ((v ++ rest).take (8 * r.wireUnits)) :=
    memRead_eq_ok.2 ⟨by omega, rfl⟩
  obtain ⟨stored, hstored⟩ := readBytes2_ok hlong
  have hne : (be16 stored == crc16 ((v ++ rest).take (8 * r.wireUnits))) = false := by
    refine beq_eq_false_iff_ne.2 fun h => hcrc ?_
    rw [← crc16_take_of_stored hstored h, ← hlength, List.take_left]
  simp only [decodeBody, decide_eq_true hunits, readOptional, if_true, hdata, hstored, Except.map,
    ok_bind, hne, check_false, error_bind]

section
variable {r : RawFrame} {netid : Bytes4} {key : Bytes16} (h : r.WellFormed netid key)
include h

/-- The data section and its CRC are read as they stand in the frame. -/
theorem readOptional_payloadBytes (rest : List Byte) :
    readOptional (decide (0 < r.wireUnits)) (memRead (r.payloadBytes ++ rest) 0 (8 * r.wireUnits)) =
        .ok r.data ∧
      readOptional (decide (0 < r.wireUnits)) (readBytes2 (r.payloadBytes ++ rest)
        (8 * r.wireUnits)) = .ok r.crcData := by
  have hlength := h.data_length
  obtain ⟨hunits, hd, hc⟩ | ⟨hunits, d, c, hd, hc, -⟩ := h.payload_cases
  · rw [hunits, hd, hc]
    exact ⟨rfl, rfl⟩
  · rw [hd, Option.getD_some] at hlength
    have hbytes : r.payloadBytes ++ rest = d ++ (c.toList ++ rest) := by
      rw [RawFrame.payloadBytes, hd, hc, List.append_assoc]
      rfl
    have hdata : memRead (d ++ (c.toList ++ rest)) 0 d.length = .ok d := memRead_middle [] d _
    have hstored : readBytes2 (d ++ (c.toList ++ rest)) d.length = .ok c :=
      map_eq_ok.2 ⟨c.toList, memRead_middle d c.toList rest, Bytes2.ofList_toList c⟩
    rw [hbytes, ← hlength, decide_eq_true hunits, hdata, hstored, hd, hc]
    exact ⟨rfl, rfl⟩

/-- The mark after the payload is compared with the network id (45_frame_decoder.md R231). -/
theorem decodeBody_of_end_ne {mark : Bytes4} (hmark : mark ≠ netid) (rest : List Byte) :
    decodeBody (r.payloadBytes ++ (mark.toList ++ rest)) netid r = .error .notSameEnd := by
  obtain ⟨hdata, hstored⟩ := readOptional_payloadBytes h (mark.toList ++ rest)
  have hend : readBytes4 (r.payloadBytes ++ (mark.toList ++ rest))
      (8 * r.wireUnits + 2 * count (decide (0 < r.wireUnits))) = .ok mark := by
    rw [← h.payloadBytes_length]
    exact readBytes4_middle r.payloadBytes mark rest
  obtain ⟨-, hd, hc⟩ | ⟨-, d, c, hd, hc, hcrc⟩ := h.payload_cases
  · rw [hd] at hdata
    rw [hc] at hstored
    simp only [decodeBody, hdata, hstored, hend, ok_bind, check_true, beq_false_of_ne hmark,
      check_false, error_bind]
  · rw [hd] at hdata
    rw [hc] at hstored
    simp only [decodeBody, hdata, hstored, hend, ok_bind, beq_iff_eq.2 hcrc, check_true,
      beq_false_of_ne hmark, check_false, error_bind]

end

end Machine

section
open Machine
variable {r : RawFrame} {netid : Bytes4} {key : Bytes16} (h : r.WellFormed netid key)
  (rest : List Byte) {k : Nat} (hk : k < 8)
include h

theorem RawFrame.WellFormed.id_eq : r.id = netid := by
  obtain ⟨-, -, -, -, hid, -⟩ := h
  exact hid

theorem RawFrame.WellFormed.frameEnd_eq : r.frameEnd = netid := by
  obtain ⟨-, -, -, -, -, hend, -⟩ := h
  exact hend

theorem RawFrame.WellFormed.aris_eq : r.aris = arisEncrypt key Config.arisLiteral := by
  obtain ⟨-, -, -, -, -, -, haris, -⟩ := h
  exact arisCandidate_eq_iff.1 haris

/-- A frame cut behind its header CRC decodes with what then follows as the rest says. -/
theorem decodeFrame_of_header (span : List Byte) :
    decodeFrame ((r.headerBytes ++ r.crcHeader.toList) ++ span) key netid =
      decodeBody span netid r := by
  have hok := decodeFrame_serializeFrame_append h []
  rw [serializeFrame_eq, List.append_nil, ← List.append_assoc] at hok
  refine decodeFrame_eq_decodeBody hok ?_ span
  rw [List.length_append, h.headerBytes_length_eq, Bytes2.toList_length]

/-! A flipped bit after the frame (45_frame_decoder.md R236). -/

theorem decodeFrame_flipBit_after (p : Nat) :
    decodeFrame (flipBit (serializeFrame r ++ rest) ((serializeFrame r).length + p) k) key netid =
      .ok (r, (serializeFrame r).length) := by
  rw [flipBit_append_add]
  exact decodeFrame_serializeFrame_append h _

include hk

/-! A flipped bit of each region of the frame (45_frame_decoder.md R236). -/

theorem decodeFrame_flipBit_id {p : Nat} (hp : p < 4) :
    decodeFrame (flipBit (serializeFrame r ++ rest) p k) key netid = .error .notSameId := by
  rw [serializeFrame_append_eq, flipBit_word_append _ _ hp]
  exact decodeFrame_of_id_ne (h.id_eq ▸ r.id.flip_ne hp hk) _

theorem decodeFrame_flipBit_marker {j : Nat} (hj : j < 4) :
    decodeFrame (flipBit (serializeFrame r ++ rest) (4 + j) k) key netid =
      .error .notSameAris := by
  have hflip := flipBit_append_add r.id.toList
  rw [Bytes4.toList_length] at hflip
  rw [serializeFrame_append_eq, hflip, flipBit_word_append _ _ hj, h.id_eq]
  exact decodeFrame_of_marker_ne (h.aris_eq ▸ r.aris.flip_ne hj hk) _

theorem RawFrame.WellFormed.crc16_flipBit_header {p : Nat} (hp : p < r.headerBytes.length + 2) :
    crc16 (flipBit (r.id.toList ++ (r.aris.toList ++ (r.ctrl.toList ++ r.fieldBytes))) p k) ≠
      0 := by
  have hfields := r.fieldBytes_length
  rw [← h.crc16_header]
  refine crc16_flipBit_ne ?_ hk
  simp only [List.length_append, Bytes4.toList_length]
  omega

theorem decodeFrame_flipBit_ctrl {j : Nat} (hj : j < 4) (hkeeps : KeepsParse j k) :
    decodeFrame (flipBit (serializeFrame r ++ rest) (8 + j) k) key netid =
      .error .notSameCrcHeader := by
  have hcrc := h.crc16_flipBit_header hk (p := 8 + j) (by rw [← r.fieldBytes_length]; omega)
  rw [flipBit_third_word _ _ _ _ hj, h.id_eq] at hcrc
  rw [serializeFrame_append_eq, flipBit_third_word _ _ _ _ hj, h.id_eq]
  refine decodeFrame_of_crcHeader_ne h.arisDecrypt_ok ?_ hcrc _
  rw [headerLenOf_flip r.ctrl hj hk hkeeps, ← h.headerBytes_length_eq, r.fieldBytes_length]

theorem decodeFrame_flipBit_fields {p : Nat} (hp : 12 + p < r.headerBytes.length + 2) :
    decodeFrame (flipBit (serializeFrame r ++ rest) (12 + p) k) key netid =
      .error .notSameCrcHeader := by
  have hfields := r.fieldBytes_length
  have hcrc := h.crc16_flipBit_header hk hp
  rw [flipBit_words_append, h.id_eq] at hcrc
  rw [serializeFrame_append_eq, flipBit_words_append, flipBit_append_left _ (by omega), h.id_eq]
  refine decodeFrame_of_crcHeader_ne h.arisDecrypt_ok ?_ hcrc _
  rw [flipBit_length, ← h.headerBytes_length_eq, hfields]

theorem decodeFrame_flipBit_payload {p : Nat} (hp : p < r.payloadBytes.length) :
    decodeFrame (flipBit (serializeFrame r ++ rest) (r.headerBytes.length + 2 + p) k) key netid =
      .error .notSameCrcData := by
  have hlength := h.payloadBytes_length
  have hunits : 0 < r.wireUnits := by
    by_contra hnone
    have hcount : count false = 0 := rfl
    rw [decide_eq_false hnone, hcount] at hlength
    omega
  have hcrc : crc16 (flipBit r.payloadBytes p k) ≠ 0 :=
    h.crc16_payloadBytes hunits ▸ crc16_flipBit_ne hp hk
  rw [serializeFrame_flipBit, flipBit_append_left _ hp, decodeFrame_of_header h]
  refine decodeBody_of_crcData_ne hunits ?_ hcrc _ _
  rw [flipBit_length, hlength, decide_eq_true hunits, count, if_pos rfl]

theorem decodeFrame_flipBit_end {j : Nat} (hj : j < 4) :
    decodeFrame (flipBit (serializeFrame r ++ rest)
      (r.headerBytes.length + 2 + (r.payloadBytes.length + j)) k) key netid =
      .error .notSameEnd := by
  rw [serializeFrame_flipBit, flipBit_append_add, flipBit_word_append _ _ hj,
    decodeFrame_of_header h]
  exact decodeBody_of_end_ne h (h.frameEnd_eq ▸ r.frameEnd.flip_ne hj hk) _

end

namespace Machine

/-- What DECODE drives when the frame decoder answers (45_frame_decoder.md R232). -/
theorem conclude_decodeFrame_ok {s : State} {r : RawFrame} {n : Nat}
    (h : decodeFrame s.operands.input s.operands.key s.operands.netid = .ok (r, n)) :
    ∀ t, t = s.conclude (decodeFrame s.operands.input s.operands.key s.operands.netid)
      (fun r v => { r with rawOut := v.1, consumed := BitVec.ofNat 16 v.2 }) →
    t.results.status = .ok ∧ t.results.rawOut = r ∧ t.results.consumed = BitVec.ofNat 16 n := by
  rintro t rfl
  rw [h, State.conclude_ok]
  exact ⟨State.complete_status .., State.complete_rawOut .., State.complete_consumed ..⟩

/-- Settles O40: the position of the bit is counted from the start of its region, and the check that
covers the region is the first to fail. -/
theorem decodeReportsSingleBitFlip : Obligations.DecodeReportsSingleBitFlip := by
  intro s t p k hexec hok _ hk
  obtain ⟨hwf, hconsumed, hinput⟩ := exec_decode_ok_wellFormed hexec hok
  have hlength := serializeFrame_length_eq t.results.rawOut
  have hfront := t.results.rawOut.fieldBytes_length
  rw [hconsumed, hinput]
  generalize s.operands.input.drop (serializeFrame t.results.rawOut).length = rest
  refine ⟨_, exec_decode _, fun hid => ?_, fun hlow hhigh => ?_, fun hheader => ?_,
    fun hlow hhigh => ?_, fun hlow hhigh => ?_, fun hafter => ?_⟩
  · exact (State.conclude_status_error_iff ..).2 (decodeFrame_flipBit_id hwf rest hk hid)
  · obtain ⟨j, rfl⟩ := Nat.exists_eq_add_of_le hlow
    exact (State.conclude_status_error_iff ..).2
      (decodeFrame_flipBit_marker hwf rest hk (by omega))
  · refine (State.conclude_status_error_iff ..).2 ?_
    obtain ⟨rfl, hbit⟩ | ⟨rfl, hbit⟩ | rfl | ⟨rfl, hbit⟩ | ⟨hlow, hhigh⟩ := hheader
    · exact decodeFrame_flipBit_ctrl hwf rest hk (j := 0) (by decide) (.inl ⟨rfl, hbit⟩)
    · exact decodeFrame_flipBit_ctrl hwf rest hk (j := 1) (by decide) (.inr (.inl ⟨rfl, hbit⟩))
    · exact decodeFrame_flipBit_ctrl hwf rest hk (j := 2) (by decide) (.inr (.inr (.inl rfl)))
    · exact decodeFrame_flipBit_ctrl hwf rest hk (j := 3) (by decide)
        (.inr (.inr (.inr ⟨rfl, hbit⟩)))
    · obtain ⟨q, rfl⟩ := Nat.exists_eq_add_of_le hlow
      exact decodeFrame_flipBit_fields hwf rest hk hhigh
  · obtain ⟨q, rfl⟩ := Nat.exists_eq_add_of_le hlow
    exact (State.conclude_status_error_iff ..).2
      (decodeFrame_flipBit_payload hwf rest hk (by omega))
  · obtain ⟨j, rfl⟩ := Nat.exists_eq_add_of_le (m := t.results.rawOut.headerBytes.length + 2 +
      t.results.rawOut.payloadBytes.length) (n := p) (by omega)
    rw [Nat.add_assoc _ _ j]
    exact (State.conclude_status_error_iff ..).2
      (decodeFrame_flipBit_end hwf rest hk (by omega))
  · obtain ⟨q, rfl⟩ := Nat.exists_eq_add_of_le hafter
    have hsame : BitVec.ofNat 16 (serializeFrame t.results.rawOut).length = t.results.consumed := by
      rw [← hconsumed, BitVec.ofNat_toNat, BitVec.setWidth_eq]
    rw [← hsame]
    exact conclude_decodeFrame_ok (s := s.withInput _) (decodeFrame_flipBit_after hwf rest q) _ rfl

end Machine

end Sys2Proof
end
